-- ==== Sys2Proof/Word.lean ====
section
/-! DEFINITION. The word types of the model: a byte, a slot index, a group index (00_scope.md 0.6.3, 0.6.4). -/

namespace Sys2Proof

/-- One byte of the console port or of the drive link. -/
abbrev Byte := BitVec 8

/-- A slot of the Hoist Table, 0 to 31 (00_scope.md 0.6.4, R1). -/
abbrev Slot := Fin 32

/-- A motion group, 0 to 7 (00_scope.md 0.6.4, R27). -/
abbrev GroupId := Fin 8

end Sys2Proof
end

