-- ==== Sys2Proof/Config.lean ====
section
/-! DEFINITION. The fixed parameters of 00_scope.md 0.7, the power-on link settings of R142, and the four free values
of the model (orders which the spec leaves open). -/

namespace Sys2Proof.Config

/-- HG_QUEUE_DEPTH: capacity of one cue queue, in cues. -/
def queueDepth : Nat := 4
/-- HG_ADDR_MIN and HG_ADDR_MAX: the node addresses. -/
def addrMin : Nat := 1
def addrMax : Nat := 62
/-- HG_HEIGHT_MAX, mm: the highest target, limit or height setting. -/
def heightMax : Nat := 50000
/-- HG_TRIM_MAX, mm: the largest trim magnitude. -/
def trimMax : Int := 2000
/-- HG_MIN_DEMAND, per mille: the smallest nonzero demand. -/
def minDemand : Nat := 20
/-- The largest demand, per mille (R76). -/
def maxDemand : Nat := 1000
/-- HG_CREEP, µm/s: the floor of a decelerating reference. -/
def creep : Nat := 5000
/-- HG_MIN_BASELINE, kg: the smallest load accepted as a baseline. -/
def minBaseline : Nat := 20
/-- HG_LOAD_OVERRANGE, kg: the reported load that means over range. -/
def loadOverrange : Nat := 8191
/-- HG_JOG_HOLD in µs: the jog hold timer's period, 300 ms. -/
def jogHoldMicros : Nat := 300 * 1000
/-- HG_JOG_DIST_MAX, mm: the longest jog. -/
def jogDistMax : Nat := 500
/-- Link byte time, µs: 10 bits at 500 kbit/s. -/
def byteMicros : Nat := 20
/-- Link bit time, µs: 500 kbit/s (R140). -/
def bitMicros : Nat := 2
/-- HG_TURNAROUND_MIN, µs: the earliest start of a reply after the end of a poll. -/
def turnaroundMin : Nat := 10
/-- HG_FRAME_GAP, µs: the gap before the next frame. -/
def frameGap : Nat := 30
/-- The highest reported height that a STATUS reply may carry, 0.1 mm (R151). -/
def reportedMax : Nat := 500000

/-- FREE VALUE (log 3). The order in which events that fall due in the same microsecond are taken: the place that the
`n`-th such choice gives an event among those behind it. The spec gives either order its outcome and fixes neither. -/
opaque eventOrder : Nat → Nat

/-- FREE VALUE (log 4). Whether DLC takes the `n`-th E-stop assertion before GENG does. R134: the deliveries are not
ordered between them. -/
opaque estopLinkFirst : Nat → Bool

/-- FREE VALUE (log 26). Whether DLC and GENG take the `n`-th E-stop assertion only after the reply that is arriving. R185:
either can reach the group first. -/
opaque estopAfterReply : Nat → Bool

/-- FREE VALUE (log 27). Whether GENG takes the events of the `n`-th evaluated moving member later than the reply's own step,
so that a group stop can come between. R87: the outcome depends on which is taken first. -/
opaque eventsWait : Nat → Bool

end Sys2Proof.Config
end

