-- ==== Sys2Proof/Syntax.lean ====
section
/-! DEFINITION. The commands: one constructor for each row of spec/opcode_table.json, with the row's operands at the
widths of R182 (console arguments) and R184 (link frames). -/

namespace Sys2Proof

/-- The two cue lines (R124). -/
inductive CueLine where
  | cue0
  | cue1
  deriving DecidableEq, Repr

/-- The commands and events that the part takes. -/
inductive Instr where
  /-- LOOK (R171): kind, block and index bytes. -/
  | look (kind block index : Byte)
  /-- CONTINUE_BYTE (R173): the byte 0x5A. -/
  | continueByte
  /-- NULL_BYTE (R163): the byte 0x00. -/
  | nullByte
  /-- UNKNOWN_COMMAND_BYTE (R166): a byte that is no command code. -/
  | unknownCommandByte (b : Byte)
  /-- SUMMARY (R175). -/
  | summary
  /-- CLRATTN (R176). -/
  | clrattn (kind index : Byte)
  /-- ADMIT (R8). -/
  | admitHoist (slot address : Byte) (lower upper trim : BitVec 16)
  /-- AMEND (R21). -/
  | amend (slot : Byte) (lower upper trim : BitVec 16) (overload underload shift : Byte) (jogDemand : BitVec 16)
  /-- RETIRE (R22). -/
  | retire (slot : Byte)
  /-- ASSIGN (R32): the group byte 8 means no group. -/
  | assign (slot group : Byte)
  /-- CLRFLAGS (R119). -/
  | clrflags (slot : Byte)
  /-- SETGROUP (R39): the nine settings in the order of R182. -/
  | setgroup (group level gain landing mask stepPeriod settle : Byte) (holdMs stopMs landMs : BitVec 16)
  /-- QUEUE (R36). -/
  | queue (group : Byte) (target cruise accel : BitVec 16) (source after : Byte)
  /-- FLUSH (R37). -/
  | flush (group : Byte)
  /-- ARM (R40). -/
  | arm (group : Byte)
  /-- GO (R45). -/
  | go (group : Byte)
  /-- HOLD of a group (R126). -/
  | hold (group : Byte)
  /-- HOLD_8: HOLD with the index 8, the jog (R132). -/
  | hold8
  /-- HALT of a group (R47). -/
  | halt (group : Byte)
  /-- HALT_8: HALT with the index 8, the jog (R132). -/
  | halt8
  /-- STAGESPD (R48). -/
  | stagespd (group : Byte) (cruise : BitVec 16)
  /-- STAGETGT (R49). -/
  | stagetgt (group : Byte) (target : BitVec 16)
  /-- ACKFAULT (R118). -/
  | ackfault (group : Byte)
  /-- JOG (R129). -/
  | jog (slot direction : Byte) (distance : BitVec 16)
  /-- LINKCFG (R157). -/
  | linkcfg (timeout : BitVec 16) (threshold : Byte) (idle : BitVec 16)
  /-- PERMIT (R136). -/
  | permit
  /-- RESTART (R120). -/
  | restart
  /-- CS_N_FALLING_EDGE (R163). -/
  | csFallingEdge
  /-- CS_N_RISING_EDGE (R168). -/
  | csRisingEdge
  /-- PORST_N (R25, R51, R138, R160, R178) with the levels of the four input lines at its release: ESTOP_N low, CUE0
  high, CUE1 high, CS_N low. -/
  | porst (estopLow cue0High cue1High csLow : Bool)
  /-- ESTOP_N_ASSERTION (R134). -/
  | estopAssertion
  /-- ESTOP_N_RELEASE (R135). -/
  | estopRelease
  /-- CUE_RISING_EDGE (R125). -/
  | cueRisingEdge (line : CueLine)
  /-- CUE_FALLING_EDGE (R128). -/
  | cueFallingEdge (line : CueLine)
  /-- STEP_TIMER_EXPIRY (R57). -/
  | stepTimerExpiry (group : GroupId)
  /-- HOLD_TIMER_EXPIRY (R127). -/
  | holdTimerExpiry (group : GroupId)
  /-- LANDING_TIMER_EXPIRY (R85). -/
  | landingTimerExpiry (group : GroupId)
  /-- STOP_TIMER_EXPIRY (R114). -/
  | stopTimerExpiry (group : GroupId)
  /-- JOG_HOLD_TIMER_EXPIRY (R132). -/
  | jogHoldTimerExpiry
  /-- RESPONSE_TIMER_EXPIRY (R149). -/
  | responseTimerExpiry
  /-- ROUND_START (R144). -/
  | roundStart
  /-- POLL (R148). -/
  | poll
  /-- END_OF_POLL (R149). -/
  | endOfPoll
  /-- HALT_ALL (R155). -/
  | haltAll
  /-- STATUS_REPLY (R13, R184): a whole 10-byte frame of kind 00. -/
  | statusReply (address : BitVec 6) (flags : Byte) (height : BitVec 24) (load : BitVec 16) (echo : Byte)
      (crc : BitVec 16)
  /-- IDENT_REPLY (R10, R184): a whole 8-byte frame of kind 01. -/
  | identReply (address : BitVec 6) (flags : Byte) (ratedLoad ratedSpeed crc : BitVec 16)
  /-- REPLY_FIRST_START_BIT (R149): the µs between the end of the poll and the start bit. -/
  | replyFirstStartBit (elapsed : Nat)
  /-- REPLY_BYTE_GAP_EXPIRY (R149): the bytes of the frame received so far. -/
  | replyByteGapExpiry (bytes : List Byte)
  /-- ARGUMENT_BYTE (R164). -/
  | argumentByte (b : Byte)
  /-- RESPONSE_BYTE (R165): the console's filler byte. -/
  | responseByte (filler : Byte)
  deriving DecidableEq, Repr

end Sys2Proof
end

