-- ==== Sys2Proof/Decode.lean ====
section
/-! DEFINITION. The command table of the console port (R169): command codes, their bytes and their argument counts; and
the table decoder. No row of spec/opcode_table.json has encoding bits, so no table word spells a command (log 21). -/

namespace Sys2Proof

/-- The commands that have a command code (R169). -/
inductive ConsoleCode where
  | look | summary | clrattn | admitHoist | amend | retire | assign | clrflags | setgroup | queue | flush | arm | go
  | hold | halt | stagespd | stagetgt | ackfault | jog | linkcfg | permit | restart
  deriving DecidableEq, Repr

/-- The command byte of each command (R169). -/
def ConsoleCode.toByte : ConsoleCode → Byte
  | .look => 0x10
  | .summary => 0x11
  | .clrattn => 0x12
  | .admitHoist => 0x20
  | .amend => 0x21
  | .retire => 0x22
  | .assign => 0x23
  | .clrflags => 0x25
  | .setgroup => 0x30
  | .queue => 0x31
  | .flush => 0x32
  | .arm => 0x33
  | .go => 0x34
  | .hold => 0x35
  | .halt => 0x36
  | .stagespd => 0x37
  | .stagetgt => 0x38
  | .ackfault => 0x39
  | .jog => 0x40
  | .linkcfg => 0x50
  | .permit => 0x51
  | .restart => 0x52

/-- Every command code, in the table's order. -/
def ConsoleCode.all : List ConsoleCode :=
  [.look, .summary, .clrattn, .admitHoist, .amend, .retire, .assign, .clrflags, .setgroup, .queue, .flush, .arm, .go,
   .hold, .halt, .stagespd, .stagetgt, .ackfault, .jog, .linkcfg, .permit, .restart]

/-- The command that a byte of the command phase names, if it is a command code (R164, R169). -/
def ConsoleCode.ofByte (b : Byte) : Option ConsoleCode :=
  ConsoleCode.all.find? (fun c => c.toByte == b)

/-- The number of argument bytes of each command (R169). -/
def ConsoleCode.argCount : ConsoleCode → Nat
  | .look => 3
  | .summary => 0
  | .clrattn => 2
  | .admitHoist => 8
  | .amend => 12
  | .retire => 1
  | .assign => 2
  | .clrflags => 1
  | .setgroup => 13
  | .queue => 9
  | .flush => 1
  | .arm => 1
  | .go => 1
  | .hold => 1
  | .halt => 1
  | .stagespd => 3
  | .stagetgt => 3
  | .ackfault => 1
  | .jog => 4
  | .linkcfg => 5
  | .permit => 0
  | .restart => 0

/-- The null byte of the command phase (R163). -/
def nullByteValue : Byte := 0x00
/-- The continue byte of the command phase (R173). -/
def continueByteValue : Byte := 0x5A
/-- The byte of every turnaround, command and argument position (R163, R165). -/
def turnaroundByte : Byte := 0xA5

/-- The length of a reply frame by the kind in its head's top two bits (R149, R184); none for the kinds 10 and 11. -/
def replyLength (head : Byte) : Option Nat :=
  if head.extractLsb' 6 2 = 0#2 then some 10 else if head.extractLsb' 6 2 = 1#2 then some 8 else none

/-- The command that a table word spells: none, for no row of the table gives bits (log 21). -/
def decodeTableWord (_nbits _w : Nat) : Option Instr := none

end Sys2Proof
end

