-- ==== Sys2Proof/Machine/State.lean ====
section
/-! DEFINITION. The state of the part as plain data: everything 00_scope.md 0.3 lists against its six blocks, field by
field as the chapters name it, and three fields of the model's own (`now`, `freeCount`, `pending`); the values after
PORST_N (R25, R51, R138, R160, R178); the reasons a step can stop. -/

namespace Sys2Proof.Machine

/-! ### Identifiers -/

/-- The states of a hoist record (R2). HST_EMPTY is the absence of a record. -/
inductive HoistState where
  | admitting | ready | moving | jogging | stopping | lost | retiring
  deriving DecidableEq, Repr

/-- The direction that a hoist record holds (R5). -/
inductive Direction where
  | none | up | down
  deriving DecidableEq, Repr

/-- The direction of a move or a jog (R28, R129). -/
inductive Travel where
  | up | down
  deriving DecidableEq, Repr

/-- Release causes (R1). -/
inductive Release where
  | none | retired | retiredUnconfirmed | retiredDirect | admitRefused | admitUnanswered
  deriving DecidableEq, Repr

/-- The fourteen conditions, in the order of their codes and priorities (R102). -/
inductive Cond where
  | estop | lost | nodeFault | overload | limit | xdev | landTime | stopTime | underload | dev | loadShift | linkErr
  | satHigh | satLow
  deriving DecidableEq, Repr

/-- A set of conditions: no repeats, in ascending code order (00_scope.md 0.6.6). -/
abbrev CondSet := List Cond

/-- Miss reasons (R151). -/
inductive MissReason where
  | timeout | early | length | crc | address | kind | stale | range
  deriving DecidableEq, Repr

/-- The states of a group (chapter 2, section 2.2). -/
inductive GroupState where
  | empty | idle | armed | moving | stopping | settling | faulted
  deriving DecidableEq, Repr

/-- Start sources; SRC_AFTER carries the after-group (R35). -/
inductive StartSource where
  | console | cue0 | cue1
  | after (group : GroupId)
  deriving DecidableEq, Repr

/-- Hold sources (R28, R44). -/
inductive HoldSource where
  | console | line0 | line1
  deriving DecidableEq, Repr

/-- What ended or is ending a group's move (R106). -/
inductive StopCause where
  | halt | holdLost
  | fault (c : Cond)
  deriving DecidableEq, Repr

/-- Jog end causes; JEND_CONDITION carries its condition (R123). -/
inductive JogEndCause where
  | distance | halt | hold
  | condition (c : Cond)
  | estop
  deriving DecidableEq, Repr

/-- The kinds of record that LOOK and CLRATTN name (R170). -/
inductive LookKind where
  | hoist | group | device
  deriving DecidableEq, Repr

/-- The blocks that LOOK names; each belongs to one kind (R170). -/
inductive LookBlock where
  | hoistStatus | hoistConfig | hoistTrack | groupState | groupConfig | groupQueue | deviceLines
  deriving DecidableEq, Repr

/-! ### Hoist Table -/

/-- A hoist record (R3 to R6). -/
structure Hoist where
  /-- R2. -/
  state : HoistState
  /-- Node address, 1 to 62 (R3). -/
  address : Nat
  /-- R3. -/
  group : Option GroupId
  /-- kg (R3). -/
  ratedLoad : Option Nat
  /-- mm/s (R3). -/
  ratedSpeed : Option Nat
  /-- Soft limits, mm (R3). -/
  lower : Nat
  upper : Nat
  /-- mm (R3). -/
  trim : Int
  /-- Percentages and jog demand (R3). -/
  overloadPct : Nat
  underloadPct : Nat
  shiftPct : Nat
  jogDemand : Nat
  /-- Reported height, 0.1 mm (R4). -/
  height : Option Nat
  /-- kg (R4, R89). -/
  load : Option Nat
  /-- BRAKE 7, RUN 6, LIMUP 5, LIMDN 4, THERM 3, PHASE 2, DRVFLT 1, DRV_READY 0 (R4, R181). -/
  nodeFlags : Option Byte
  /-- per mille of the rated speed (R5). -/
  demand : Nat
  /-- R5. -/
  direction : Direction
  /-- µm (R5, R73). -/
  deviation : Option Int
  /-- R5, R74. -/
  landed : Bool
  /-- kg (R5, R94). -/
  baseline : Option Nat
  /-- 0.1 mm (R5, R130). -/
  jogStart : Option Nat
  /-- mm (R5, R130). -/
  jogDistance : Option Nat
  /-- R6, R103. -/
  current : CondSet
  /-- R6, R104. -/
  accrued : CondSet
  /-- R6, R154. -/
  missCount : Nat
  /-- R6, R154. -/
  lastMiss : Option MissReason
  /-- R6, R150. -/
  seqBit : Bool
  deriving DecidableEq, Repr

/-- One slot of the Hoist Table: its record, or none while HST_EMPTY, and the three fields of the slot itself (R1). -/
structure SlotEntry where
  record : Option Hoist
  release : Release
  releasedAddress : Option Nat
  attention : Bool
  deriving DecidableEq, Repr

/-! ### Group Engine -/

/-- The stop mask, a subset of UNDERLOAD, DEV, LOADSHIFT (R38). -/
structure StopMask where
  underload : Bool
  dev : Bool
  loadShift : Bool
  deriving DecidableEq, Repr

/-- The nine settings of a group (R38), in the units of its table. -/
structure Settings where
  levelTol : Nat
  gain : Nat
  landingTol : Nat
  stopMask : StopMask
  stepPeriod : Nat
  settleRounds : Nat
  holdTimeout : Nat
  stopTimeout : Nat
  landingTimeout : Nat
  deriving DecidableEq, Repr

/-- A queued move (R35): mm, mm/s, mm/s². -/
structure Cue where
  target : Nat
  cruise : Nat
  accel : Nat
  source : StartSource
  deriving DecidableEq, Repr

/-- A group's record of the fault that stopped or faulted it (R110). -/
structure FirstFault where
  cause : Cond
  slot : Option Slot
  value : Option Int
  reference : Option Int
  deriving DecidableEq, Repr

/-- A fault held by an idle group (R111). -/
structure PendingFault where
  cause : Cond
  slot : Slot
  value : Option Int
  deriving DecidableEq, Repr

/-- A group record (R27 to R30, R35, R38). A timer is stopped (none) or runs with the µs that remain. -/
structure Group where
  /-- R27. -/
  state : GroupState
  /-- Ascending (R31). -/
  members : List Slot
  /-- R38. -/
  settings : Settings
  /-- Head first (R35). -/
  queue : List Cue
  /-- R28, R41. -/
  direction : Option Travel
  /-- µm/s (R28, R41). -/
  cruise : Option Nat
  cruiseLimited : Bool
  /-- µm (R28, R54). -/
  startRef : Option Int
  /-- µm (R28, R61). -/
  reference : Option Int
  /-- nm, 0 to 999 (R28, R60). -/
  residue : Nat
  /-- µm/s (R28, R59). -/
  refSpeed : Nat
  arrived : Bool
  /-- mm/s (R28, R48). -/
  stagedSpeed : Option Nat
  /-- mm (R28, R49). -/
  stagedTarget : Option Nat
  holdSource : Option HoldSource
  settleRemaining : Nat
  /-- R29, R106. -/
  stopCause : Option StopCause
  firstFault : Option FirstFault
  pendingFault : Option PendingFault
  /-- The group flags HOLDLOST, STOPTIME, RETARGET_LATE (R29). -/
  holdLost : Bool
  stopTime : Bool
  retargetLate : Bool
  /-- R50. -/
  attention : Bool
  /-- R30. -/
  stepTimer : Option Nat
  holdTimer : Option Nat
  landingTimer : Option Nat
  stopTimer : Option Nat
  deriving DecidableEq, Repr

/-! ### Drive Link Controller -/

/-- The pace of the round that is awaited (R146). -/
inductive Pace where
  | fast | slow
  deriving DecidableEq, Repr

/-- The round state (R142). -/
inductive RoundState where
  | stopped
  | inRound
  | between (pace : Pace)
  deriving DecidableEq, Repr

/-- The frame that a poll sent (R142). -/
inductive PollFrame where
  | run | ident
  deriving DecidableEq, Repr

/-- Where the poll in flight stands (R148, R149): its frame is being sent; the response timer runs with the µs that
remain; a reply is being received, whose start bit began before HG_TURNAROUND_MIN or not. -/
inductive PollStage where
  | sending
  | awaiting (left : Nat)
  | receiving (early : Bool)
  deriving DecidableEq, Repr

/-- The poll in flight (R142). The record it was sent for is the slot's record as long as it is not orphaned (log 10). -/
structure PollInFlight where
  slot : Slot
  frame : PollFrame
  seqBit : Bool
  orphaned : Bool
  /-- The response timeout in force when the poll began, µs (R159). -/
  timeout : Nat
  stage : PollStage
  deriving DecidableEq, Repr

/-- What the line is doing (R140, R155). Times are the µs that remain. -/
inductive LineActivity where
  /-- DLC sends nothing. -/
  | quiet
  /-- DLC is sending a poll with these bytes. -/
  | sendingPoll (bytes : List Byte) (left : Nat)
  /-- DLC is sending HALT_ALL. -/
  | sendingHalt (left : Nat)
  /-- DLC finishes the byte in progress of a poll that an E-stop cut short. -/
  | cutPoll (byte : Byte) (left : Nat)
  /-- The reply of an aborted poll is still arriving; it will be discarded. -/
  | discarding
  deriving DecidableEq, Repr

/-- The state of DLC (R142). -/
structure Link where
  pollList : List Slot
  round : RoundState
  lastPolled : Option Slot
  /-- µs of the model's clock (R142, log 2). -/
  roundStart : Option Nat
  poll : Option PollInFlight
  /-- µs (R142). -/
  responseTimeout : Nat
  lossThreshold : Nat
  /-- ms (R142). -/
  idleInterval : Nat
  line : LineActivity
  /-- µs that remain of the frame gap after the last exchange: before the next poll or round start (R144, R146, R149). -/
  gap : Nat
  /-- µs that remain of the frame gap after the last byte on the line: before a HALT_ALL, and before the first frame of a
  round that an ADMIT starts (R147, R155). -/
  lineGap : Nat
  /-- A HALT_ALL is to be sent before any poll (R155, R156). -/
  haltOwed : Bool
  deriving DecidableEq, Repr

/-! ### Safety Line Block -/

/-- The record of the last jog end (R123). -/
structure JogEnd where
  slot : Slot
  cause : JogEndCause
  deriving DecidableEq, Repr

/-- The state of SLB (R123). MAINS_EN is `State.mainsEn`. -/
structure Safety where
  estopAsserted : Bool
  /-- SLB has taken the assertion, and DLC and GENG have not: it is delivered to them after the reply that is arriving
  (R78, R185, log 26). -/
  estopWaiting : Bool
  cue0 : Bool
  cue1 : Bool
  permit : Bool
  estopSeen : Bool
  estopCleared : Bool
  jogSlot : Option Slot
  jogTimer : Option Nat
  lastJogEnd : Option JogEnd
  deriving DecidableEq, Repr

/-! ### Console Port -/

/-- The phase of the transaction with what belongs to it (R163): in the arguments phase the command and the bytes
collected so far, in the response phase the bytes still to return (the next one and those behind it) and whether the
phase after them is ignoring (R166). -/
inductive Phase where
  | closed
  | command
  | arguments (code : ConsoleCode) (got : List Byte)
  | response (next : Byte) (rest : List Byte) (thenIgnore : Bool)
  | ignoring
  deriving DecidableEq, Repr

/-- A walk position: the block and the index last returned (R171). -/
structure WalkPosition where
  block : LookBlock
  index : Nat
  deriving DecidableEq, Repr

/-- The state of CPORT (R163, R171). -/
structure Port where
  phase : Phase
  /-- The level of CS_N as last taken: true is low. -/
  csLow : Bool
  /-- The byte returned on MISO in the last byte position; none while MISO is not driven (log 8). -/
  miso : Option Byte
  /-- The cursor's kind and block: the block belongs to one kind. -/
  cursorBlock : LookBlock
  cursorStart : Nat
  firstLook : Bool
  walk : Option WalkPosition
  deriving DecidableEq, Repr

/-! ### The whole state -/

/-- The events of one evaluated member, on their way from TRK to GENG (R81, R87). -/
structure MemberEvents where
  group : GroupId
  slot : Slot
  /-- The condition event's cause and value, if the evaluation has one to hand (R81, R107). -/
  condition : Option (Cond × Option Int)
  /-- Whether the evaluation has a landed event to hand (R81). -/
  landed : Bool
  deriving DecidableEq, Repr

/-- The state of the part. -/
structure State where
  /-- HTAB (R1). -/
  slots : Vector SlotEntry 32
  /-- HTAB: the node address map, ascending by address (R7). -/
  nodeMap : List (Nat × Slot)
  /-- GENG (R27). -/
  groups : Vector Group 8
  /-- The events of a member's reply that GENG has yet to take (R81, R87, log 27). -/
  eventsWaiting : Option MemberEvents
  /-- DLC (R142). -/
  link : Link
  /-- SLB (R123). -/
  safety : Safety
  /-- CPORT (R163). -/
  port : Port
  /-- MODEL: µs since the clock began (log 2). -/
  now : Nat
  /-- MODEL: how many free values have been used (logs 3, 4, 26 and 27). -/
  freeCount : Nat
  /-- MODEL: the commands that wait, the front first. -/
  pending : List Instr
  deriving DecidableEq, Repr

/-- Why a step can stop with a fault. -/
inductive Fault where
  /-- Raised by STEP_TIMER_EXPIRY alone: the step timer runs, but the group has no head cue, direction, effective cruise
  or reference. R28, R35 and R57 exclude it, and no run from reset reaches it (log 16). Safe: the model stops in a
  state the part never has. -/
  | stepWithoutProfile
  deriving DecidableEq, Repr

/-- Why a step can be refused. -/
inductive Refusal where
  /-- Raised by `exec` for a command that has no meaning yet. Safe: no claim about it can be proved. -/
  | notModelled (mnemonic : String)
  deriving DecidableEq, Repr

/-! ### Reset values -/

/-- An empty slot after PORST_N (R25). -/
def SlotEntry.reset : SlotEntry := ⟨none, .none, none, false⟩

/-- The power-on settings (R38). -/
def Settings.reset : Settings := ⟨25, 16, 3, ⟨true, true, true⟩, 20, 5, 300, 2000, 8000⟩

/-- A group record after PORST_N (R51). -/
def Group.reset : Group where
  state := .empty
  members := []
  settings := Settings.reset
  queue := []
  direction := none
  cruise := none
  cruiseLimited := false
  startRef := none
  reference := none
  residue := 0
  refSpeed := 0
  arrived := false
  stagedSpeed := none
  stagedTarget := none
  holdSource := none
  settleRemaining := 0
  stopCause := none
  firstFault := none
  pendingFault := none
  holdLost := false
  stopTime := false
  retargetLate := false
  attention := false
  stepTimer := none
  holdTimer := none
  landingTimer := none
  stopTimer := none

/-- DLC after PORST_N (R160). -/
def Link.reset : Link where
  pollList := []
  round := .stopped
  lastPolled := none
  roundStart := none
  poll := none
  responseTimeout := 200
  lossThreshold := 3
  idleInterval := 100
  line := .quiet
  gap := 0
  lineGap := 0
  haltOwed := false

/-- SLB after PORST_N with these line levels: an ESTOP_N that is low is taken as an assertion, whose one visible effect
is ESTOP_SEEN (R138). -/
def Safety.reset (estopLow cue0High cue1High : Bool) : Safety where
  estopAsserted := estopLow
  estopWaiting := false
  cue0 := cue0High
  cue1 := cue1High
  permit := false
  estopSeen := estopLow
  estopCleared := false
  jogSlot := none
  jogTimer := none
  lastJogEnd := none

/-- CPORT after PORST_N: a CS_N that is low then opens no transaction (R178). -/
def Port.reset (csLow : Bool) : Port where
  phase := .closed
  csLow := csLow
  miso := none
  cursorBlock := .hoistStatus
  cursorStart := 0
  firstLook := false
  walk := none

/-- The part after PORST_N with these line levels at its release (R25, R51, R138, R160, R178). -/
def State.afterReset (estopLow cue0High cue1High csLow : Bool) : State where
  slots := Vector.replicate 32 SlotEntry.reset
  nodeMap := []
  groups := Vector.replicate 8 Group.reset
  eventsWaiting := none
  link := Link.reset
  safety := Safety.reset estopLow cue0High cue1High
  port := Port.reset csLow
  now := 0
  freeCount := 0
  pending := []

/-- The machine right after reset: ESTOP_N released, the cue lines low and CS_N high (DESIGN CHOICE, unsafe, log 1),
the clock at 0 (log 2) and nothing waiting. -/
def State.reset : State := State.afterReset false false false false

end Sys2Proof.Machine
end

