-- ==== Sys2Proof/Machine/Flags.lean ====
section
/-! DEFINITION. Flags: the conditions with their codes and classes (R102), condition sets, the node flags byte (R181),
and the current and accrued sets of a slot (R103, R104). -/

namespace Sys2Proof.Machine

/-! ### Conditions -/

/-- Every condition, in ascending code order: a lower code wins (R102). -/
def Cond.all : List Cond :=
  [.estop, .lost, .nodeFault, .overload, .limit, .xdev, .landTime, .stopTime, .underload, .dev, .loadShift, .linkErr,
   .satHigh, .satLow]

/-- The code of a condition (R102). -/
def Cond.code : Cond → Nat
  | .estop => 1
  | .lost => 2
  | .nodeFault => 3
  | .overload => 4
  | .limit => 5
  | .xdev => 6
  | .landTime => 7
  | .stopTime => 8
  | .underload => 9
  | .dev => 10
  | .loadShift => 11
  | .linkErr => 12
  | .satHigh => 13
  | .satLow => 14

/-- The classes of conditions (R102). -/
inductive CondClass where
  | stop | maskable | record | flag
  deriving DecidableEq, Repr

/-- The class of a condition (R102). -/
def Cond.condClass : Cond → CondClass
  | .estop | .lost | .nodeFault | .overload | .limit | .xdev | .landTime => .stop
  | .stopTime => .record
  | .underload | .dev | .loadShift => .maskable
  | .linkErr | .satHigh | .satLow => .flag

/-- A stop-class condition (R102). -/
def Cond.isStop (c : Cond) : Bool := c.condClass == .stop

/-- A condition whose entry into the accrued set sets the slot's attention (R104). -/
def Cond.setsAttention (c : Cond) : Bool := c.condClass == .stop || c.condClass == .maskable

/-- A maskable condition whose name is in the stop mask (R38, R102). -/
def StopMask.masks (m : StopMask) : Cond → Bool
  | .underload => m.underload
  | .dev => m.dev
  | .loadShift => m.loadShift
  | _ => false

/-! ### Condition sets -/

/-- The set of the conditions that satisfy a test. -/
def CondSet.ofTest (p : Cond → Bool) : CondSet := Cond.all.filter p

/-- The union of two sets. -/
def CondSet.union (a b : CondSet) : CondSet := CondSet.ofTest fun c => a.contains c || b.contains c

/-- The set with a condition added. -/
def CondSet.add (a : CondSet) (c : Cond) : CondSet := CondSet.ofTest fun d => a.contains d || d == c

/-- The set without a condition. -/
def CondSet.remove (a : CondSet) (c : Cond) : CondSet := CondSet.ofTest fun d => a.contains d && d != c

/-- The highest-priority condition of a set that satisfies a test: the one of the lowest code. -/
def CondSet.top (a : CondSet) (p : Cond → Bool) : Option Cond := Cond.all.find? fun c => a.contains c && p c

/-- A stop-class condition is in the set. -/
def CondSet.hasStop (a : CondSet) : Bool := Cond.all.any fun c => a.contains c && c.isStop

/-- A set keeps its canonical form: every set that an operation above gives equals its own filter of `Cond.all`. -/
abbrev CondSet.wf (a : CondSet) : Prop := a = CondSet.ofTest fun c => a.contains c

/-! ### Node flags (R181) -/

/-- BRAKE. -/
def brakeSet (f : Byte) : Bool := f.getLsbD 7
/-- RUN. -/
def runSet (f : Byte) : Bool := f.getLsbD 6
/-- LIMUP. -/
def limUp (f : Byte) : Bool := f.getLsbD 5
/-- LIMDN. -/
def limDown (f : Byte) : Bool := f.getLsbD 4
/-- THERM, PHASE or DRVFLT (R105). -/
def nodeTrouble (f : Byte) : Bool := f.getLsbD 3 || f.getLsbD 2 || f.getLsbD 1
/-- DRV_READY. -/
def driveReady (f : Byte) : Bool := f.getLsbD 0

/-- At rest: BRAKE set and RUN clear (R17). -/
def atRest (f : Byte) : Bool := brakeSet f && !runSet f

/-! ### The current and accrued sets of a slot -/

/-- A write of the current set (R103): every condition of the new set joins the accrued set, and one that sets attention and
was not there before sets the slot's attention flag (R104). -/
def SlotEntry.writeCurrent (new : CondSet) (e : SlotEntry) : SlotEntry :=
  match e.record with
  | none => e
  | some h =>
    { e with
      record := some { h with current := new, accrued := h.accrued.union new }
      attention := e.attention || new.any fun c => c.setsAttention && !h.accrued.contains c }

/-- A condition joins the current set. -/
def SlotEntry.addCurrent (c : Cond) (e : SlotEntry) : SlotEntry :=
  match e.record with
  | none => e
  | some h => e.writeCurrent (h.current.add c)

/-- A condition leaves the current set, by a valid reply or a recovery (R103). It is a write of the set like the others, so what
stays in the set joins the accrued set (R104, log 9). -/
def SlotEntry.removeCurrent (c : Cond) (e : SlotEntry) : SlotEntry :=
  match e.record with
  | none => e
  | some h => e.writeCurrent (h.current.remove c)

end Sys2Proof.Machine
end

