-- ==== Sys2Proof/Machine/Operands.lean ====
section
/-! DEFINITION. Operands and encodings: argument bytes to numbers and indices (R181, R182), numbers to bytes (R181), the
codes of the enumerations, the status codes (R167), and the CRC of the drive link (R140). -/

namespace Sys2Proof.Machine

/-! ### Arguments (R181, R182) -/

/-- A two-byte argument, most significant byte first. -/
def wordOf (hi lo : Byte) : BitVec 16 := hi ++ lo

/-- The most significant byte of a two-byte argument. -/
def hiByte (w : BitVec 16) : Byte := w.extractLsb' 8 8

/-- The least significant byte of a two-byte argument. -/
def loByte (w : BitVec 16) : Byte := w.extractLsb' 0 8

/-- A slot argument, if it is 0 to 31. -/
def slotOf (b : Byte) : Option Slot := if h : b.toNat < 32 then some ⟨b.toNat, h⟩ else none

/-- A group argument, if it is 0 to 7. -/
def groupOf (b : Byte) : Option GroupId := if h : b.toNat < 8 then some ⟨b.toNat, h⟩ else none

/-- A jog direction argument: 1 UP, 2 DOWN (R182). -/
def travelOf (b : Byte) : Option Travel := if b = 1 then some .up else if b = 2 then some .down else none

/-- A start source argument with its after-group: SRC_AFTER takes an after-group 0 to 7 that is not the named group, and
any other source disregards it (R36). -/
def sourceOf (named : GroupId) (source after : Byte) : Option StartSource :=
  if source = 0 then some .console
  else if source = 1 then some .cue0
  else if source = 2 then some .cue1
  else if source = 3 then
    match groupOf after with
    | some k => if k = named then none else some (.after k)
    | none => none
  else none

/-- A value clamped into a range (R21, R36, R39, R157). -/
def clampTo (low high v : Nat) : Nat := if v < low then low else if v > high then high else v

/-- A value clamped into a range and rounded down to a multiple of 10 (R39, R157). -/
def clampTens (low high v : Nat) : Nat := clampTo low high v / 10 * 10

/-- Both limits at most 50,000, the lower below the upper, the trim within ±2,000 (R8, R21). -/
def limitsValid (lower upper : Nat) (trim : Int) : Bool :=
  decide (lower ≤ Config.heightMax) && decide (upper ≤ Config.heightMax) && decide (lower < upper) &&
    decide (-Config.trimMax ≤ trim) && decide (trim ≤ Config.trimMax)

/-- Division truncated toward zero (00_scope.md 0.6.2). -/
def divTrunc (a b : Int) : Int := a.tdiv b

/-! ### Status codes (R167) -/

/-- The status of a command. -/
inductive Status where
  | ok | clamped | unknown | range | state | empty | duplicate | full | limit | pending | notReady | reverse | noPower
  | unlevel | noMove
  deriving DecidableEq, Repr

/-- The status byte (R167). -/
def Status.code : Status → Byte
  | .ok => 0x00
  | .clamped => 0x01
  | .unknown => 0x80
  | .range => 0x81
  | .state => 0x82
  | .empty => 0x83
  | .duplicate => 0x84
  | .full => 0x85
  | .limit => 0x86
  | .pending => 0x87
  | .notReady => 0x88
  | .reverse => 0x89
  | .noPower => 0x8A
  | .unlevel => 0x8B
  | .noMove => 0x8C

/-- STS_CLAMPED if anything was adjusted, otherwise STS_OK. -/
def statusOf (clamped : Bool) : Status := if clamped then .clamped else .ok

/-- A command's answer: its status and its response data. -/
structure Answer where
  status : Status
  data : List Byte
  deriving DecidableEq, Repr

/-- An answer with no response data. -/
def Answer.plain (st : Status) : Answer := ⟨st, []⟩

/-! ### Numbers to bytes (R181) -/

/-- The `n` bytes of a number, most significant first. -/
def be : Nat → Nat → List Byte
  | 0, _ => []
  | n + 1, v => BitVec.ofNat 8 (v / 256 ^ n) :: be n v

/-- An unsigned field that may be absent: absence is all ones. -/
def beOpt (n : Nat) : Option Nat → List Byte
  | some v => be n v
  | none => be n (256 ^ n - 1)

/-- A signed field: two's complement at its width. -/
def beInt (n : Nat) (v : Int) : List Byte := be n (v % (256 ^ n : Nat)).toNat

/-- A signed field that may be absent: absence is the most negative value. -/
def beIntOpt (n : Nat) : Option Int → List Byte
  | some v => beInt n v
  | none => be n (256 ^ n / 2)

/-- A yes/no field, as a number. -/
def yesNo (b : Bool) : Nat := if b then 1 else 0

/-- A set of slots as 4 bytes: slot n in bit n. -/
def slotBits (p : Slot → Bool) : Nat := (List.finRange 32).foldl (fun a i => if p i then a + 2 ^ i.val else a) 0

/-- A set of groups as 1 byte: group n in bit n. -/
def groupBits (p : GroupId → Bool) : Nat := (List.finRange 8).foldl (fun a i => if p i then a + 2 ^ i.val else a) 0

/-- A condition set as 2 bytes: condition code c in bit c − 1. -/
def condBits (a : CondSet) : Nat := Cond.all.foldl (fun n c => if a.contains c then n + 2 ^ (c.code - 1) else n) 0

/-! ### Codes of the enumerations (R181 and the tables it names) -/

/-- HST_ codes; HST_EMPTY is 0 (chapter 1, section 1.2). -/
def HoistState.code : HoistState → Nat
  | .admitting => 1
  | .ready => 2
  | .moving => 3
  | .jogging => 4
  | .stopping => 5
  | .lost => 6
  | .retiring => 7

/-- Hoist directions: 0 NONE, 1 UP, 2 DOWN. -/
def Direction.code : Direction → Nat
  | .none => 0
  | .up => 1
  | .down => 2

/-- Group directions: 1 UP, 2 DOWN. -/
def Travel.code : Travel → Nat
  | .up => 1
  | .down => 2

/-- The hoist direction of a travel. -/
def Travel.direction : Travel → Direction
  | .up => .up
  | .down => .down

/-- REL_ codes (R1). -/
def Release.code : Release → Nat
  | .none => 0
  | .retired => 1
  | .retiredUnconfirmed => 2
  | .retiredDirect => 3
  | .admitRefused => 4
  | .admitUnanswered => 5

/-- MISS_ codes (R151). -/
def MissReason.code : MissReason → Nat
  | .timeout => 1
  | .early => 2
  | .length => 3
  | .crc => 4
  | .address => 5
  | .kind => 6
  | .stale => 7
  | .range => 8

/-- GST_ codes (chapter 2, section 2.2). -/
def GroupState.code : GroupState → Nat
  | .empty => 0
  | .idle => 1
  | .armed => 2
  | .moving => 3
  | .stopping => 4
  | .settling => 5
  | .faulted => 6

/-- SRC_ codes (R35). -/
def StartSource.code : StartSource → Nat
  | .console => 0
  | .cue0 => 1
  | .cue1 => 2
  | .after _ => 3

/-- The after-group of a start source (R35). -/
def StartSource.afterGroup : StartSource → Option Nat
  | .after k => some k.val
  | _ => none

/-- Hold sources: 1 CONSOLE, 2 LINE0, 3 LINE1. -/
def HoldSource.code : HoldSource → Nat
  | .console => 1
  | .line0 => 2
  | .line1 => 3

/-- Stop causes: a condition code, or STOP_HALT 16, STOP_HOLDLOST 17 (R106). -/
def StopCause.code : StopCause → Nat
  | .halt => 16
  | .holdLost => 17
  | .fault c => c.code

/-- JEND_ codes (R123). -/
def JogEndCause.code : JogEndCause → Nat
  | .distance => 1
  | .halt => 2
  | .hold => 3
  | .condition _ => 4
  | .estop => 5

/-- The condition of a jog end, for JEND_CONDITION (R123). -/
def JogEndCause.cond : JogEndCause → Option Nat
  | .condition c => some c.code
  | _ => none

/-- The stop mask as a byte: bit 0 UNDERLOAD, bit 1 DEV, bit 2 LOADSHIFT (R181). -/
def StopMask.code (m : StopMask) : Nat := yesNo m.underload + 2 * yesNo m.dev + 4 * yesNo m.loadShift

/-- The stop mask of an argument byte; the other bits are discarded (R39). -/
def stopMaskOf (b : Byte) : StopMask := ⟨b.getLsbD 0, b.getLsbD 1, b.getLsbD 2⟩

/-- LOOK kinds (R170). -/
def lookKindOf (b : Byte) : Option LookKind :=
  if b = 0 then some .hoist else if b = 1 then some .group else if b = 2 then some .device else none

/-- LOOK blocks of a kind (R170). -/
def lookBlockOf (k : LookKind) (b : Byte) : Option LookBlock :=
  match k with
  | .hoist =>
    if b = 0 then some .hoistStatus else if b = 1 then some .hoistConfig else if b = 2 then some .hoistTrack else none
  | .group =>
    if b = 0 then some .groupState else if b = 1 then some .groupConfig else if b = 2 then some .groupQueue else none
  | .device => if b = 0 then some .deviceLines else none

/-- The kind that a block belongs to (R170). -/
def LookBlock.kind : LookBlock → LookKind
  | .hoistStatus | .hoistConfig | .hoistTrack => .hoist
  | .groupState | .groupConfig | .groupQueue => .group
  | .deviceLines => .device

/-- How many records a kind has (R170). -/
def LookKind.count : LookKind → Nat
  | .hoist => 32
  | .group => 8
  | .device => 1

/-! ### The CRC of the drive link (R140) -/

/-- One bit of the CRC register: generator x^16 + x^12 + x^5 + 1. -/
def crcShift (r : BitVec 16) : BitVec 16 := if r.msb then (r <<< 1) ^^^ 0x1021 else r <<< 1

/-- `n` bits of the CRC register. -/
def crcShifts : Nat → BitVec 16 → BitVec 16
  | 0, r => r
  | n + 1, r => crcShifts n (crcShift r)

/-- One byte enters the register, most significant bit first. -/
def crcByte (r : BitVec 16) (b : Byte) : BitVec 16 := crcShifts 8 (r ^^^ (b ++ 0#8))

/-- The CRC of a frame's bytes: the register starts at 0xFFFF and its final value is sent unchanged. -/
def crc16 (bytes : List Byte) : BitVec 16 := bytes.foldl crcByte 0xFFFF

/-- A frame with its CRC, high byte first. -/
def withCrc (bytes : List Byte) : List Byte := bytes ++ [hiByte (crc16 bytes), loByte (crc16 bytes)]

end Sys2Proof.Machine
end

