-- ==== Sys2Proof/Machine/Ops.lean ====
section
/-! DEFINITION. The named operations over the two tables: reading and writing slots, records and groups, the ascending
lists (poll list, member sets, node address map), the summary and the pins that are functions of the state, and the
conditions under which rounds run fast. -/

namespace Sys2Proof.Machine

/-! ### Slots and records -/

/-- The entry of a slot. -/
def State.slot (s : State) (i : Slot) : SlotEntry := s.slots[i]

/-- The record in a slot, if it is not HST_EMPTY. -/
def State.record (s : State) (i : Slot) : Option Hoist := (s.slot i).record

/-- The state of the record in a slot, or none for HST_EMPTY. -/
def State.hoistState (s : State) (i : Slot) : Option HoistState := (s.record i).map (·.state)

/-- Replaces the entry of a slot. -/
def State.setSlot (s : State) (i : Slot) (e : SlotEntry) : State := { s with slots := s.slots.set i e }

/-- Changes the entry of a slot. -/
def State.modSlot (s : State) (i : Slot) (f : SlotEntry → SlotEntry) : State := s.setSlot i (f (s.slot i))

/-- Changes the record of an entry, if there is one. -/
def SlotEntry.modRecord (f : Hoist → Hoist) (e : SlotEntry) : SlotEntry := { e with record := e.record.map f }

/-- Changes the record in a slot, if there is one. -/
def State.modRecord (s : State) (i : Slot) (f : Hoist → Hoist) : State := s.modSlot i (SlotEntry.modRecord f)

/-- Sets the attention flag of a slot (R24). -/
def State.slotAttention (s : State) (i : Slot) : State := s.modSlot i fun e => { e with attention := true }

/-- Changes every slot entry by its index. -/
def State.mapSlots (s : State) (f : Slot → SlotEntry → SlotEntry) : State :=
  { s with slots := Vector.ofFn fun i => f i s.slots[i] }

/-! ### Groups -/

/-- The record of a group. -/
def State.group (s : State) (k : GroupId) : Group := s.groups[k]

/-- Changes the record of a group. -/
def State.modGroup (s : State) (k : GroupId) (f : Group → Group) : State :=
  { s with groups := s.groups.set k (f s.groups[k]) }

/-- Changes every group record. -/
def State.mapGroups (s : State) (f : Group → Group) : State := { s with groups := s.groups.map f }

/-- Changes the record of each member of a group (R31). -/
def State.modMembers (s : State) (k : GroupId) (f : Hoist → Hoist) : State :=
  s.mapSlots fun i e => if i ∈ (s.group k).members then e.modRecord f else e

/-- The group is active (chapter 2, section 2.2). -/
def GroupState.active : GroupState → Bool
  | .armed | .moving | .stopping | .settling => true
  | .empty | .idle | .faulted => false

/-- The first cue of the queue (R35). -/
def Group.head (g : Group) : Option Cue := g.queue.head?

/-- The records of a group's members, in ascending slot order (R31). -/
def State.memberRecords (s : State) (k : GroupId) : List Hoist := (s.group k).members.filterMap s.record

/-- The smallest rated speed among the members, mm/s (R41, R48). -/
def State.minRatedSpeed (s : State) (k : GroupId) : Option Nat :=
  ((s.memberRecords k).filterMap (·.ratedSpeed)).min?

/-- The lowest-slot member whose record satisfies a test. -/
def State.lowestMember (s : State) (k : GroupId) (p : Hoist → Bool) : Option Slot :=
  (s.group k).members.find? fun i => match s.record i with
    | some h => p h
    | none => false

/-! ### Ascending lists -/

/-- A slot enters an ascending list at its place (R31, R143). -/
def insertSlot (i : Slot) : List Slot → List Slot
  | [] => [i]
  | j :: rest => if i < j then i :: j :: rest else if i = j then j :: rest else j :: insertSlot i rest

/-- A slot leaves an ascending list. -/
def removeSlot (i : Slot) (l : List Slot) : List Slot := l.filter (· != i)

/-- An address enters the node address map (R7). -/
def insertAddress (a : Nat) (i : Slot) : List (Nat × Slot) → List (Nat × Slot)
  | [] => [(a, i)]
  | (b, j) :: rest =>
    if a < b then (a, i) :: (b, j) :: rest
    else if a = b then (a, i) :: rest
    else (b, j) :: insertAddress a i rest

/-- An address leaves the node address map (R7). -/
def removeAddress (a : Nat) (m : List (Nat × Slot)) : List (Nat × Slot) := m.filter fun e => e.1 != a

/-- The slot that the node address map gives an address (R7). -/
def lookupAddress (a : Nat) (m : List (Nat × Slot)) : Option Slot := (m.find? fun e => e.1 == a).map (·.2)

/-! ### Pins and the summary -/

/-- MAINS_EN is asserted exactly while the permit latch is set (R123, log 20). -/
def State.mainsEn (s : State) : Bool := s.safety.permit

/-- LINK_DE is asserted while DLC sends a frame (R140, log 20). -/
def State.linkDe (s : State) : Bool :=
  match s.link.line with
  | .sendingPoll _ _ | .sendingHalt _ | .cutPoll _ _ => true
  | .quiet | .discarding => false

/-- MISO as the last byte position left it; none while it is not driven (R163, log 8). -/
def State.miso (s : State) : Option Byte := s.port.miso

/-- ATTN is high while the summary holds any set flag (R177). -/
def State.attn (s : State) : Bool :=
  (List.finRange 32).any (fun i => (s.slot i).attention) || (List.finRange 8).any (fun k => (s.group k).attention) ||
    s.safety.estopSeen || s.safety.estopCleared

/-! ### Pace -/

/-- A record in one of the states that make rounds fast and that refuse RESTART and LINKCFG (R120, R146, R157). -/
def HoistState.busy : HoistState → Bool
  | .jogging | .stopping | .admitting | .retiring => true
  | .ready | .moving | .lost => false

/-- A hoist is HST_JOGGING, HST_STOPPING, HST_ADMITTING or HST_RETIRING. -/
def State.anyBusyHoist (s : State) : Bool :=
  (List.finRange 32).any fun i => match s.record i with
    | some h => h.state.busy
    | none => false

/-- A group is GST_ARMED, GST_MOVING, GST_STOPPING or GST_SETTLING. -/
def State.anyActiveGroup (s : State) : Bool := (List.finRange 8).any fun k => (s.group k).state.active

/-- The condition of the fast pace (R146). -/
def State.fastCondition (s : State) : Bool := s.anyActiveGroup || s.anyBusyHoist

/-- While DLC waits at slow pace, an event that makes the fast condition hold ends the wait (R146). Every command's
meaning ends with this. -/
def State.repace (s : State) : State :=
  match s.link.round with
  | .between .slow => if s.fastCondition then { s with link := { s.link with round := .between .fast } } else s
  | _ => s

/-! ### Hoist transitions that only write the record -/

/-- Demand 0 and direction NONE (R2). -/
def Hoist.quiet (h : Hoist) : Hoist := { h with demand := 0, direction := .none }

/-- A stop of the group reaches a HST_MOVING member (R15, R18). -/
def Hoist.stop (h : Hoist) : Hoist :=
  if h.state = .moving then
    { h with state := .stopping, demand := 0, direction := .none, deviation := none, landed := false }
  else h

/-- An arrival reaches a HST_MOVING member (R16, R18). -/
def Hoist.arrive (h : Hoist) : Hoist :=
  if h.state = .moving then
    { h with state := .ready, demand := 0, direction := .none, deviation := none, landed := false }
  else h

/-- A move start reaches a HST_READY member (R14, R18). -/
def Hoist.startMove (h : Hoist) : Hoist :=
  if h.state = .ready then
    { h with state := .moving, demand := 0, direction := .none, deviation := none, landed := false, baseline := none }
  else h

/-- A jog end reaches the HST_JOGGING hoist (R15). -/
def Hoist.endJog (h : Hoist) : Hoist :=
  if h.state = .jogging then
    { h with state := .stopping, demand := 0, direction := .none, jogStart := none, jogDistance := none }
  else h

/-- MAINS_EN is deasserted: demand 0 in a HST_MOVING or HST_JOGGING record (R78). -/
def Hoist.cutPower (h : Hoist) : Hoist :=
  if h.state = .moving ∨ h.state = .jogging then h.quiet else h

/-- The trim-normalised height of a hoist, µm (R41, R54). -/
def Hoist.normalHeight (h : Hoist) : Option Int := h.height.map fun p => (p : Int) * 100 - h.trim * 1000

/-- The value that a cause of this condition carries, from the record's fields (R107). -/
def Hoist.causeValue (h : Hoist) : Cond → Option Int
  | .lost => some h.missCount
  | .nodeFault => h.nodeFlags.map fun f => (f.toNat : Int)
  | .overload | .underload | .loadShift => h.load.map fun w => (w : Int)
  | .limit => h.height.map fun p => (p : Int)
  | .xdev | .dev => h.deviation
  | _ => none

end Sys2Proof.Machine
end

