-- ==== Sys2Proof/Machine/Profile.lean ====
section
/-! DEFINITION. The reference profile of one group (chapter 3): the start reference, the staged retarget latch, and the
profile step, in exact integers (R62). -/

namespace Sys2Proof.Machine

/-- The truncated average of normalised heights: the level estimate (R41) and the start reference (R54). -/
def average (ns : List Int) : Int := divTrunc ns.sum ns.length

/-- The normalised heights of a group's members (R41, R54). -/
def State.normalHeights (s : State) (k : GroupId) : List Int := (s.memberRecords k).filterMap Hoist.normalHeight

/-- A height in µm lies at or beyond a target in the direction of travel (R56). -/
def atOrBeyond (dir : Travel) (x target : Int) : Bool :=
  match dir with
  | .up => decide (target ≤ x)
  | .down => decide (x ≤ target)

/-- A height in µm lies strictly ahead of the reference in the direction of travel (R49, R63). -/
def strictlyAhead (dir : Travel) (x reference : Int) : Bool :=
  match dir with
  | .up => decide (reference < x)
  | .down => decide (x < reference)

/-- The floor of a decelerating reference, µm/s (R59). -/
def speedFloor (cruise : Nat) : Nat := min Config.creep cruise

/-- The braking distance, µm (R58). -/
def brakingDistance (v accel : Nat) : Nat := v * v / (2000 * accel)

/-- The new speed of a step, µm/s (R59): `r` is the remaining distance, `dt` the step period in ms. -/
def nextSpeed (v accel dt cruise : Nat) (r : Nat) : Nat :=
  if r ≤ brakingDistance v accel then max (v - accel * dt) (speedFloor cruise) else min (v + accel * dt) cruise

/-- The reference moved `d` µm in the direction of travel (R61). -/
def advance (dir : Travel) (reference : Int) (d : Nat) : Int :=
  match dir with
  | .up => reference + d
  | .down => reference - d

/-- A new target for the head cue, in place (R63). -/
def retargetHead (target : Nat) : List Cue → List Cue
  | [] => []
  | c :: rest => { c with target := target } :: rest

/-- The latch of R63: the staged target, and a staged speed with it. `slowest` is the smallest rated speed among the
members. -/
def Group.latch (g : Group) (target : Nat) (slowest : Option Nat) : Group :=
  match g.stagedSpeed with
  | none => { g with queue := retargetHead target g.queue, stagedTarget := none }
  | some v =>
    { g with
      queue := retargetHead target g.queue
      cruise := some (v * 1000)
      cruiseLimited := decide (slowest = some v)
      refSpeed := min g.refSpeed (v * 1000)
      stagedSpeed := none
      stagedTarget := none }

/-- A staged target that is no longer ahead is discarded late (R64). -/
def Group.discardLate (g : Group) : Group :=
  { g with stagedSpeed := none, stagedTarget := none, retargetLate := true, attention := true }

/-- The test of a staged target at a step expiry (R63, R64, R65). -/
def Group.applyStaging (g : Group) (dir : Travel) (reference : Int) (slowest : Option Nat) : Group :=
  match g.stagedTarget with
  | none => g
  | some t => if strictlyAhead dir ((t : Int) * 1000) reference then g.latch t slowest else g.discardLate

/-- The advance of the reference after the latch (R58 to R61): `cue` is the head cue and `cruise` the effective cruise
as the latch left them. -/
def Group.advanceStep (g : Group) (dir : Travel) (reference : Int) (cue : Cue) (cruise : Nat) : Group :=
  let target : Int := (cue.target : Int) * 1000
  let r := (target - reference).natAbs
  let v := nextSpeed g.refSpeed cue.accel g.settings.stepPeriod cruise r
  let total := v * g.settings.stepPeriod + g.residue
  let d := total / 1000
  if r ≤ d then
    { g with
      reference := some target
      refSpeed := 0
      residue := 0
      arrived := true
      stepTimer := none
      landingTimer := some (g.settings.landingTimeout * 1000) }
  else
    { g with
      reference := some (advance dir reference d)
      refSpeed := v
      residue := total % 1000
      stepTimer := some (g.settings.stepPeriod * 1000) }

/-- A whole profile step (R57); none where the group has no head cue, direction, effective cruise or reference. -/
def Group.profileStep (g : Group) (slowest : Option Nat) : Option Group :=
  match g.direction, g.reference with
  | some dir, some reference =>
    let g' := g.applyStaging dir reference slowest
    match g'.head, g'.cruise with
    | some cue, some cruise => some (g'.advanceStep dir reference cue cruise)
    | _, _ => none
  | _, _ => none

/-- The hold source that a start source gives (R44). -/
def StartSource.holdSource : StartSource → HoldSource
  | .cue0 => .line0
  | .cue1 => .line1
  | .console | .after _ => .console

/-- All four timers stopped: what a group does at entry to a state in which the table of R30 runs none. -/
def Group.stopTimers (g : Group) : Group :=
  { g with stepTimer := none, holdTimer := none, landingTimer := none, stopTimer := none }

/-- The group's side of a move start (R44, R54 to R56), with the start reference and the head cue. -/
def Group.begin (g : Group) (cue : Cue) (dir : Travel) (start : Int) : Group :=
  let target : Int := (cue.target : Int) * 1000
  let arrives := atOrBeyond dir start target
  { g with
    state := .moving
    holdSource := some cue.source.holdSource
    holdTimer := if cue.source.holdSource = .console then some (g.settings.holdTimeout * 1000) else none
    startRef := some start
    reference := some (if arrives then target else start)
    refSpeed := 0
    residue := 0
    arrived := arrives
    stepTimer := if arrives then none else some (g.settings.stepPeriod * 1000)
    landingTimer := if arrives then some (g.settings.landingTimeout * 1000) else none
    stopTimer := none }

/-- The group leaves GST_MOVING (R66): timers stopped (R30), speed and residue 0, staging absent. -/
def Group.leaveMoving (g : Group) : Group :=
  { g.stopTimers with
    refSpeed := 0
    residue := 0
    stagedSpeed := none
    stagedTarget := none }

end Sys2Proof.Machine
end

