-- ==== Sys2Proof/Machine/Groups.lean ====
section
/-! DEFINITION. GENG's events and its side of the group commands: stops and their completion (R112 to R116), faults
(R108 to R111), the E-stop (R115), move starts and chained starts (R43, R44, R46), arrival completion and settling
(R82 to R84), the console commands that name a group (R32 to R49, R118, R126). -/

namespace Sys2Proof.Machine

/-! ### Stops -/

/-- A first-fault record with the reference as it stands (R110). -/
def Group.capture (g : Group) (c : Cond) (slot : Option Slot) (value : Option Int) : FirstFault :=
  ⟨c, slot, value, g.reference⟩

/-- A stop cause other than STOP_HALT and STOP_HOLDLOST (R106). -/
def StopCause.isFault : StopCause → Bool
  | .fault _ => true
  | .halt | .holdLost => false

/-- The group's fields at entry to GST_STOPPING, steps 1 to 3 of R112. -/
def Group.beginStop (g : Group) (cause : StopCause) (slot : Option Slot) (value : Option Int) : Group :=
  { g.leaveMoving with
    state := .stopping
    stopCause := some cause
    firstFault := match cause with
      | .fault c => some (g.capture c slot value)
      | .halt | .holdLost => g.firstFault
    stopTimer := some (g.settings.stopTimeout * 1000) }

/-- A stopping group whose stop is complete: GST_FAULTED for a fault cause, otherwise GST_IDLE (R113). -/
def Group.completeStop (g : Group) : Group :=
  { g.stopTimers with
    state := match g.stopCause with
      | some (.fault _) => .faulted
      | _ => .idle
    attention := true }

/-- Every member that is not HST_LOST is HST_READY (R113). -/
def State.allAtRest (s : State) (k : GroupId) : Bool :=
  (s.group k).members.all fun i => match s.record i with
    | some h => h.state == .lost || h.state == .ready
    | none => true

/-- GENG tests a stopping group for stop completion (R113); a group in any other state is unchanged. -/
def State.testStop (s : State) (k : GroupId) : State :=
  if (s.group k).state = .stopping ∧ s.allAtRest k then s.modGroup k Group.completeStop else s

/-- A moving group enters GST_STOPPING (R112). -/
def State.enterStopping (s : State) (k : GroupId) (cause : StopCause) (slot : Option Slot) (value : Option Int) : State :=
  ((s.modGroup k fun g => g.beginStop cause slot value).modMembers k Hoist.stop).testStop k

/-- A group enters GST_FAULTED from GST_ARMED or GST_SETTLING (R108, R115). -/
def Group.fault (g : Group) (c : Cond) (slot : Option Slot) (value : Option Int) : Group :=
  { g.stopTimers with
    state := .faulted
    stopCause := some (.fault c)
    firstFault := some (g.capture c slot value)
    attention := true }

/-- A fault found in an idle group is posted, unless one is pending (R111). -/
def Group.post (g : Group) (c : Cond) (slot : Slot) (value : Option Int) : Group :=
  match g.pendingFault with
  | none => { g with pendingFault := some ⟨c, slot, value⟩, attention := true }
  | some _ => g

/-- GENG takes a condition event of a member in the state its group holds (R108). -/
def State.conditionEvent (s : State) (k : GroupId) (i : Slot) (c : Cond) (value : Option Int) : State :=
  match (s.group k).state with
  | .moving => s.enterStopping k (.fault c) (some i) value
  | .armed | .settling => s.modGroup k fun g => g.fault c (some i) value
  | .idle => s.modGroup k fun g => g.post c i value
  | .stopping | .faulted | .empty => s

/-- GENG takes a loss event: a condition event with COND_LOST, and in GST_STOPPING a test for completion (R109). -/
def State.lossEvent (s : State) (k : GroupId) (i : Slot) (value : Option Int) : State :=
  match (s.group k).state with
  | .stopping => s.testStop k
  | _ => s.conditionEvent k i .lost value

/-- The deadman hold of a moving group is lost (R127, R128). -/
def State.loseHold (s : State) (k : GroupId) : State :=
  (s.enterStopping k .holdLost none none).modGroup k fun g => { g with holdLost := true, attention := true }

/-- A group takes the E-stop in its state (R115). -/
def State.estopGroup (s : State) (k : GroupId) : State :=
  match (s.group k).state with
  | .moving => s.enterStopping k (.fault .estop) none none
  | .armed | .settling => s.modGroup k fun g => g.fault .estop none none
  | .stopping =>
    match (s.group k).stopCause with
    | some (.fault _) => s
    | _ => s.modGroup k fun g =>
        { g with stopCause := some (.fault .estop), firstFault := some (g.capture .estop none none) }
  | .idle | .faulted | .empty => s

/-- GENG takes the E-stop: every group acts by its state (R115). -/
def State.estopGroups (s : State) : State := (List.finRange 8).foldl State.estopGroup s

/-! ### Starts -/

/-- The start event reaches a group: armed, with a head cue and a direction (R43). -/
def State.startMove (s : State) (k : GroupId) : State :=
  match (s.group k).state, (s.group k).head, (s.group k).direction with
  | .armed, some cue, some dir =>
    let start := average (s.normalHeights k)
    (s.modGroup k fun g => g.begin cue dir start).modMembers k Hoist.startMove
  | _, _, _ => s

/-- The group is GST_ARMED and its head cue names this start source (R43). -/
def Group.awaits (g : Group) (src : StartSource) : Bool :=
  g.state == .armed && match g.head with
    | some cue => cue.source == src
    | none => false

/-- A start event reaches every group that awaits the source (R43). -/
def State.startAll (s : State) (src : StartSource) : State :=
  (List.finRange 8).foldl (fun t k => if (t.group k).awaits src then t.startMove k else t) s

/-- The chained start event of a group (R46). -/
def State.chainedStart (s : State) (k : GroupId) : State := s.startAll (.after k)

/-! ### Arrival and settling -/

/-- Every member is HST_MOVING with landed yes (R82). -/
def State.allLanded (s : State) (k : GroupId) : Bool :=
  (s.group k).members.all fun i => match s.record i with
    | some h => h.state == .moving && h.landed
    | none => false

/-- The group's fields at arrival completion (R82, R83): the head cue leaves, the profile stops, and the group settles
or, with settle rounds 0, is idle with its attention set. -/
def Group.arrive (g : Group) : Group :=
  if g.settings.settleRounds = 0 then
    { g.leaveMoving with queue := g.queue.tail, state := .idle, settleRemaining := 0, attention := true }
  else
    { g.leaveMoving with queue := g.queue.tail, state := .settling, settleRemaining := g.settings.settleRounds }

/-- GENG takes a landed event (R81, R82): it tests for arrival completion. -/
def State.landedEvent (s : State) (k : GroupId) : State :=
  if (s.group k).state = .moving ∧ (s.group k).arrived = true ∧ s.allLanded k then
    let t := (s.modGroup k Group.arrive).modMembers k Hoist.arrive
    if (s.group k).settings.settleRounds = 0 then t.chainedStart k else t
  else s

/-- GENG takes the events of one evaluated member in their order: the condition event, then the landed event in the state
that the condition event leaves (R81). -/
def State.takeEvents (s : State) (e : MemberEvents) : State :=
  let t := match e.condition with
    | some (c, value) => s.conditionEvent e.group e.slot c value
    | none => s
  if e.landed then t.landedEvent e.group else t

/-- One group counts a completed round (R84). -/
def State.settleRound (s : State) (k : GroupId) : State :=
  if (s.group k).state = .settling then
    if (s.group k).settleRemaining ≤ 1 then
      (s.modGroup k fun g => { g.stopTimers with state := .idle, settleRemaining := 0, attention := true }).chainedStart k
    else s.modGroup k fun g => { g with settleRemaining := g.settleRemaining - 1 }
  else s

/-- GENG takes a round completion: the settling groups count it (R84). -/
def State.settleRounds (s : State) : State := (List.finRange 8).foldl State.settleRound s

/-! ### Timer expiries -/

/-- The landing timer expires (R85). -/
def State.landingExpiry (s : State) (k : GroupId) : State :=
  let i := s.lowestMember k fun h => !h.landed
  s.enterStopping k (.fault .landTime) i ((i.bind s.record).bind (·.deviation))

/-- The stop timer expires (R114). -/
def State.stopExpiry (s : State) (k : GroupId) : State :=
  let i := s.lowestMember k fun h => h.state == .stopping
  s.modGroup k fun g =>
    { g.stopTimers with
      firstFault := match g.firstFault with
        | none => some (g.capture .stopTime i none)
        | some f => some f
      stopCause := match g.firstFault with
        | none => some (.fault .stopTime)
        | some _ => g.stopCause
      stopTime := true
      state := .faulted
      attention := true }

/-! ### Membership -/

/-- A group that lost its last member becomes GST_EMPTY (R34). -/
def Group.becomeEmpty (g : Group) : Group :=
  { g.stopTimers with
    state := .empty
    pendingFault := none
    stopCause := none
    firstFault := none }

/-- A slot leaves a group's member set (R33 step 1, R34). -/
def Group.dropMember (g : Group) (i : Slot) : Group :=
  let rest := removeSlot i g.members
  if rest.isEmpty then { g.becomeEmpty with members := rest } else { g with members := rest }

/-- A slot enters a group's member set (R33 step 3). -/
def Group.addMember (g : Group) (i : Slot) : Group :=
  { g with
    members := insertSlot i g.members
    state := match g.state with
      | .empty => .idle
      | st => st }

/-- The record leaves its group, if it has one (R22, R33). -/
def State.leaveGroup (s : State) (i : Slot) : State :=
  match (s.record i).bind (·.group) with
  | none => s
  | some k => (s.modGroup k fun g => g.dropMember i).modRecord i fun h => { h with group := none }

/-- The record enters a group (R33). -/
def State.joinGroup (s : State) (i : Slot) (k : GroupId) : State :=
  (s.modRecord i fun h => { h with group := some k }).modGroup k fun g => g.addMember i

/-- GST_EMPTY, GST_IDLE or GST_FAULTED (R32, R37, R39). -/
def GroupState.atRest : GroupState → Bool
  | .empty | .idle | .faulted => true
  | .armed | .moving | .stopping | .settling => false

/-- The record has no group, or its group's state satisfies a test. -/
def State.groupAllows (s : State) (h : Hoist) (p : GroupState → Bool) : Bool :=
  match h.group with
  | none => true
  | some k => p (s.group k).state

/-- The group of an ASSIGN argument: 0 to 7, or 8 for no group (R32); the outer none is out of range. -/
def assignGroupOf (b : Byte) : Option (Option GroupId) :=
  if b = 8 then some none else (groupOf b).map some

/-- ASSIGN (R32, R33). -/
def State.assign (s : State) (slot group : Byte) : State × Answer :=
  match slotOf slot, assignGroupOf group with
  | some i, some target =>
    match s.record i with
    | none => (s, .plain .empty)
    | some h =>
      if h.state ≠ .ready ∧ h.state ≠ .lost then (s, .plain .state)
      else if !s.groupAllows h GroupState.atRest then (s, .plain .state)
      else
        match target with
        | none => (s.leaveGroup i, .plain .ok)
        | some k =>
          if !(s.group k).state.atRest then (s, .plain .state)
          else if h.group = some k then (s, .plain .ok)
          else ((s.leaveGroup i).joinGroup i k, .plain .ok)
  | _, _ => (s, .plain .range)

/-! ### The cue queue and the settings -/

/-- QUEUE (R36). -/
def State.queueCue (s : State) (group : Byte) (target cruise accel : BitVec 16) (source after : Byte) : State × Answer :=
  match groupOf group with
  | none => (s, .plain .range)
  | some k =>
    if target.toNat > Config.heightMax then (s, .plain .range)
    else
      match sourceOf k source after with
      | none => (s, .plain .range)
      | some src =>
        if (s.group k).queue.length ≥ Config.queueDepth then (s, .plain .full)
        else
          let c := clampTo 1 300 cruise.toNat
          let a := clampTo 10 1000 accel.toNat
          (s.modGroup k fun g => { g with queue := g.queue ++ [⟨target.toNat, c, a, src⟩] },
            ⟨statusOf (c != cruise.toNat || a != accel.toNat), be 1 (s.group k).queue.length⟩)

/-- FLUSH (R37). -/
def State.flush (s : State) (group : Byte) : State × Answer :=
  match groupOf group with
  | none => (s, .plain .range)
  | some k =>
    if (s.group k).state.atRest then (s.modGroup k fun g => { g with queue := [] }, .plain .ok)
    else (s, .plain .state)

/-- The settings that SETGROUP writes, each adjusted into its range (R39). -/
def settingsOf (level gain landing mask stepPeriod settle : Byte) (holdMs stopMs landMs : BitVec 16) : Settings where
  levelTol := clampTo 1 200 level.toNat
  gain := gain.toNat
  landingTol := clampTo 1 20 landing.toNat
  stopMask := stopMaskOf mask
  stepPeriod := clampTens 10 100 stepPeriod.toNat
  settleRounds := settle.toNat
  holdTimeout := clampTo 100 1000 holdMs.toNat
  stopTimeout := clampTo 500 5000 stopMs.toNat
  landingTimeout := clampTo 1000 30000 landMs.toNat

/-- SETGROUP (R39). -/
def State.setGroup (s : State) (group level gain landing mask stepPeriod settle : Byte)
    (holdMs stopMs landMs : BitVec 16) : State × Answer :=
  match groupOf group with
  | none => (s, .plain .range)
  | some k =>
    if (s.group k).state.atRest then
      let t := settingsOf level gain landing mask stepPeriod settle holdMs stopMs landMs
      (s.modGroup k fun g => { g with settings := t },
        .plain (statusOf (t.levelTol != level.toNat || t.landingTol != landing.toNat || t.stopMask.code != mask.toNat ||
          t.stepPeriod != stepPeriod.toNat || t.holdTimeout != holdMs.toNat || t.stopTimeout != stopMs.toNat ||
          t.landingTimeout != landMs.toNat)))
    else (s, .plain .state)

/-! ### Arming -/

/-- A member is ready to move: HST_READY, its reported height present, DRV_READY among its node flags (R40). -/
def Hoist.readyToMove (h : Hoist) : Bool :=
  h.state == .ready && h.height.isSome && match h.nodeFlags with
    | some f => driveReady f
    | none => false

/-- Every member satisfies a test. -/
def State.everyMember (s : State) (k : GroupId) (p : Hoist → Bool) : Bool :=
  (s.group k).members.all fun i => match s.record i with
    | some h => p h
    | none => false

/-- A member's own target lies within its limits, both inclusive (R41). -/
def Hoist.targetWithin (h : Hoist) (target : Nat) : Bool :=
  decide ((h.lower : Int) ≤ target + h.trim) && decide ((target : Int) + h.trim ≤ h.upper)

/-- The pending fault of an idle group becomes its first-fault record (R42). -/
def Group.convert (g : Group) (p : PendingFault) : Group :=
  { g.stopTimers with
    state := .faulted
    firstFault := some ⟨p.cause, some p.slot, p.value, g.reference⟩
    stopCause := some (.fault p.cause)
    pendingFault := none
    attention := true }

/-- The effective cruise, mm/s: the smaller of the cue's cruise and the smallest rated speed (R41). -/
def cappedSpeed (slowest : Option Nat) (cruise : Nat) : Nat :=
  match slowest with
  | some r => min cruise r
  | none => cruise

/-- What an accepted ARM writes (R28, R41): `level` is the level estimate. -/
def Group.arm (g : Group) (cue : Cue) (level : Int) (slowest : Option Nat) : Group :=
  { g.stopTimers with
    state := .armed
    direction := some (if level < (cue.target : Int) * 1000 then .up else .down)
    cruise := some (cappedSpeed slowest cue.cruise * 1000)
    cruiseLimited := match slowest with
      | some r => decide (r ≤ cue.cruise)
      | none => false
    startRef := none
    reference := none
    residue := 0
    refSpeed := 0
    arrived := false
    stagedSpeed := none
    stagedTarget := none
    holdSource := none
    settleRemaining := 0
    stopCause := none
    holdLost := false
    stopTime := false
    retargetLate := false }

/-- ARM (R40 to R42). -/
def State.arm (s : State) (group : Byte) : State × Answer :=
  match groupOf group with
  | none => (s, .plain .range)
  | some k =>
    let g := s.group k
    if g.state ≠ .idle then (s, .plain .state)
    else
      match g.head with
      | none => (s, .plain .empty)
      | some cue =>
        if !s.mainsEn then (s, .plain .noPower)
        else
          match g.pendingFault with
          | some p => (s.modGroup k fun g => g.convert p, .plain .pending)
          | none =>
            let level := average (s.normalHeights k)
            let target : Int := (cue.target : Int) * 1000
            if !s.everyMember k Hoist.readyToMove then (s, .plain .notReady)
            else if !s.everyMember k (fun h => h.targetWithin cue.target) then (s, .plain .limit)
            else if (s.normalHeights k).any (fun n => (n - level).natAbs > g.settings.levelTol * 1000) then
              (s, .plain .unlevel)
            else if (target - level).natAbs ≤ g.settings.landingTol * 1000 then (s, .plain .noMove)
            else (s.modGroup k fun g => g.arm cue level (s.minRatedSpeed k), .plain .ok)

/-! ### The commands of an armed or moving group -/

/-- GO (R45). -/
def State.go (s : State) (group : Byte) : State × Answer :=
  match groupOf group with
  | none => (s, .plain .range)
  | some k => if (s.group k).awaits .console then (s.startMove k, .plain .ok) else (s, .plain .state)

/-- HALT of a group (R47). -/
def State.haltGroup (s : State) (k : GroupId) : State :=
  match (s.group k).state with
  | .armed => s.modGroup k fun g => { g.stopTimers with state := .idle }
  | .moving => s.enterStopping k .halt none none
  | _ => s

/-- HOLD of a group (R126). -/
def State.holdGroup (s : State) (k : GroupId) : State × Answer :=
  if (s.group k).state = .moving ∧ (s.group k).holdSource = some .console then
    (s.modGroup k fun g => { g with holdTimer := some (g.settings.holdTimeout * 1000) }, .plain .ok)
  else (s, .plain .state)

/-- STAGESPD (R48). -/
def State.stageSpeed (s : State) (group : Byte) (cruise : BitVec 16) : State × Answer :=
  match groupOf group with
  | none => (s, .plain .range)
  | some k =>
    if (s.group k).state = .moving then
      let v := cappedSpeed (s.minRatedSpeed k) (clampTo 1 300 cruise.toNat)
      (s.modGroup k fun g => { g with stagedSpeed := some v }, .plain (statusOf (v != cruise.toNat)))
    else (s, .plain .state)

/-- STAGETGT (R49). -/
def State.stageTarget (s : State) (group : Byte) (target : BitVec 16) : State × Answer :=
  match groupOf group with
  | none => (s, .plain .range)
  | some k =>
    let g := s.group k
    match g.state, g.arrived, g.direction, g.reference with
    | .moving, false, some dir, some reference =>
      if target.toNat > Config.heightMax then (s, .plain .range)
      else if !s.everyMember k (fun h => h.targetWithin target.toNat) then (s, .plain .limit)
      else if !strictlyAhead dir ((target.toNat : Int) * 1000) reference then (s, .plain .reverse)
      else (s.modGroup k fun g => { g with stagedTarget := some target.toNat }, .plain .ok)
    | _, _, _, _ => (s, .plain .state)

/-- A member's current set holds a stop-class condition (R118). -/
def State.memberStopCondition (s : State) (k : GroupId) : Bool :=
  (s.memberRecords k).any fun h => h.current.hasStop

/-- ACKFAULT (R118). -/
def State.ackFault (s : State) (group : Byte) : State × Answer :=
  match groupOf group with
  | none => (s, .plain .range)
  | some k =>
    match (s.group k).state with
    | .faulted =>
      if s.memberStopCondition k then (s, .plain .notReady)
      else (s.modGroup k fun g => { g.stopTimers with state := .idle, firstFault := none, stopCause := none }, .plain .ok)
    | .idle => (s.modGroup k fun g => { g with pendingFault := none }, .plain .ok)
    | _ => (s, .plain .state)

/-! ### RESTART -/

/-- RESTART acts on a group record (R52). -/
def Group.restart (g : Group) : Group :=
  { g.stopTimers with
    state := if g.members.isEmpty then .empty else .idle
    queue := []
    stagedSpeed := none
    stagedTarget := none
    stopCause := none
    firstFault := none
    pendingFault := none
    holdLost := false
    stopTime := false
    retargetLate := false
    residue := 0
    refSpeed := 0
    settleRemaining := 0
    attention := false }

/-- One slot's turn in the repost after RESTART (R121). -/
def State.repost (s : State) (i : Slot) : State :=
  match s.record i with
  | none => s
  | some h =>
    match h.group, h.current.top Cond.isStop with
    | some k, some c => s.modGroup k fun g => g.post c i (h.causeValue c)
    | _, _ => s

/-- GENG reposts pending faults, slots in ascending order (R121). -/
def State.repostAll (s : State) : State := (List.finRange 32).foldl State.repost s

end Sys2Proof.Machine
end

