-- ==== Sys2Proof/Machine/Link.lean ====
section
/-! DEFINITION. DLC (chapter 8): the frames it sends (R141, R184), polls and rounds (R143 to R149), the poll list's two
events, the E-stop on the link (R155, R156), and the judging of a reply (R151). -/

namespace Sys2Proof.Machine

/-! ### Frames (R184) -/

/-- The head byte: the kind in bits 7 and 6, the address in bits 5 to 0 (R141). -/
def headByte (kind : BitVec 2) (address : Nat) : Byte := kind ++ BitVec.ofNat 6 address

/-- The POLL_RUN control byte: direction in bits 1 and 0, brake release in bit 2, sequence bit in bit 7. -/
def controlByte (d : Direction) (release seq : Bool) : Byte :=
  BitVec.ofNat 8 (d.code + 4 * yesNo release + 128 * yesNo seq)

/-- The bytes of a POLL_RUN, formed from the record's demand and direction (R2, R148). -/
def pollRunBytes (h : Hoist) (seq : Bool) : List Byte :=
  withCrc ([headByte 0 h.address, controlByte h.direction (decide (0 < h.demand)) seq] ++ be 2 h.demand)

/-- The bytes of a POLL_IDENT. -/
def pollIdentBytes (h : Hoist) (seq : Bool) : List Byte :=
  withCrc [headByte 1 h.address, BitVec.ofNat 8 (128 * yesNo seq)]

/-- The bytes of HALT_ALL: head 0xBF. -/
def haltAllBytes : List Byte := withCrc [headByte 2 63]

/-- The time that a frame takes on the line, µs (R140). -/
def frameMicros (bytes : List Byte) : Nat := bytes.length * Config.byteMicros

/-- The bits of a byte on the line, true for high: a low start bit, the data bits least significant first, a high stop bit
(R140; the levels of start and stop bit, log 30). -/
def lineBits (b : Byte) : List Bool := false :: (List.finRange 8).map (fun j => b.getLsbD j.val) ++ [true]

/-- The level of LINK_TX while bytes are sent one after another with `left` µs to go. -/
def txLevel (bytes : List Byte) (left : Nat) : Bool :=
  (bytes.flatMap lineBits).getD ((frameMicros bytes - left) / Config.bitMicros) true

/-- LINK_TX, true for high, while DLC sends; outside its frames the spec gives the pin no level (R140, logs 20 and 30). -/
def State.linkTx (s : State) : Option Bool :=
  match s.link.line with
  | .sendingPoll bytes left => some (txLevel bytes left)
  | .sendingHalt left => some (txLevel haltAllBytes left)
  | .cutPoll b left => some (txLevel [b] left)
  | .quiet | .discarding => none

/-- The frame that a poll of a record sends (R2, R148). -/
def Hoist.pollFrame (h : Hoist) : PollFrame := if h.state = .admitting then .ident else .run

/-- The bytes of the poll of a record (R148). -/
def Hoist.pollBytes (h : Hoist) (seq : Bool) : List Byte :=
  match h.pollFrame with
  | .ident => pollIdentBytes h seq
  | .run => pollRunBytes h seq

/-! ### Rounds -/

/-- Changes the state of DLC. -/
def State.modLink (s : State) (f : Link → Link) : State := { s with link := f s.link }

/-- The lowest slot of the poll list above the last polled slot; an absent last polled slot lies below slot 0 (R144). -/
def Link.nextSlot (l : Link) : Option Slot :=
  l.pollList.find? fun i => match l.lastPolled with
    | none => true
    | some j => decide (j < i)

/-- A round starts (R144): the last polled slot absent, the start time recorded, and a HALT_ALL owed while ESTOP_N is
asserted (R156). -/
def State.startRound (s : State) : State :=
  s.modLink fun l =>
    { l with
      round := .inRound
      lastPolled := none
      roundStart := some s.now
      haltOwed := l.haltOwed || s.safety.estopAsserted }

/-- DLC decides the next round (R145, R146): STOPPED with an empty poll list, in which nothing is sent (R147),
otherwise awaited at the pace of this moment. -/
def State.decideRound (s : State) : State :=
  s.modLink fun l =>
    if l.pollList.isEmpty then { l with round := .stopped, haltOwed := false }
    else { l with round := .between (if s.fastCondition then .fast else .slow) }

/-- A round completes (R145): GENG counts it, then DLC decides the next. -/
def State.completeRound (s : State) : State := s.settleRounds.decideRound

/-- The round completes if no listed slot lies above the last polled one (R144). -/
def State.completeIfDone (s : State) : State := if s.link.nextSlot = none then s.completeRound else s

/-- A round that has no poll open completes if it is done. While the events of a reply wait it does not: GENG takes the
events of the evaluation before the round completion that follows it (R84, R152, log 27). -/
def State.completeIdleRound (s : State) : State :=
  if s.link.round = .inRound ∧ s.link.poll = none ∧ s.eventsWaiting = none then s.completeIfDone else s

/-- Events that wait are taken now, in the state that the group has come to (R87, log 27), and then the round completion that
had to wait for them (R84, R152). -/
def State.deliverEvents (s : State) : State :=
  match s.eventsWaiting with
  | some e => (State.takeEvents { s with eventsWaiting := none } e).completeIdleRound
  | none => s

/-- The poll in flight is closed, and its slot is the last polled one (R144). -/
def Link.shutPoll (l : Link) (i : Slot) : Link := { l with poll := none, lastPolled := some i }

/-- The poll in flight is closed; the round goes on or completes (R144). -/
def State.closePoll (s : State) (i : Slot) : State := (s.modLink fun l => l.shutPoll i).completeIfDone

/-- An exchange ends at this moment, with `rest` µs left of the frame gap after the last byte on the line. The next poll or
round start is a frame gap after this moment (R144, R146, R149); a HALT_ALL, or the first frame after STOPPED, counts from
the last byte (R147, R155, log 29). -/
def Link.endExchange (l : Link) (rest : Nat) : Link := { l with line := .quiet, gap := Config.frameGap, lineGap := rest }

/-- DLC's own frame, or the last byte of a cut one, ends at this moment (R155). -/
def Link.endFrame (l : Link) : Link := l.endExchange Config.frameGap

/-- A discarded reply has ended: no exchange was open, so every frame counts from its last byte (R147, R155). -/
def Link.endDiscard (l : Link) (rest : Nat) : Link := { l with line := .quiet, gap := rest, lineGap := rest }

/-- A poll ends by its reply or its timeout (R144, R149, R153). Where the reply's events wait, the round's completion waits
behind them (R152, log 27). -/
def State.endPoll (s : State) (i : Slot) (rest : Nat) : State :=
  let t := s.modLink fun l => (l.endExchange rest).shutPoll i
  if t.eventsWaiting.isSome then t else t.completeIfDone

/-! ### The poll list's events -/

/-- A slot leaves the poll list (R143): its poll in flight is orphaned (R153); a round that is awaited with an empty list
is cancelled (R147); a round with no poll open and no slot left to poll completes (log 11), behind a reply's events that wait
(log 27). What the line is doing goes on: a HALT_ALL that is being sent when the last slot leaves is sent to its end (DESIGN
CHOICE, log 32). -/
def State.leavePollList (s : State) (i : Slot) : State :=
  let t := s.modLink fun l =>
    { l with
      pollList := removeSlot i l.pollList
      poll := l.poll.map fun p => if p.slot = i then { p with orphaned := true } else p }
  match t.link.round with
  | .between _ => if t.link.pollList.isEmpty then t.modLink fun l => { l with round := .stopped, haltOwed := false } else t
  | .inRound | .stopped => t.completeIdleRound

/-- A slot enters the poll list; a stopped DLC starts a round at once, its first frame a frame gap after the end of the last
frame on the line (R143, R147). -/
def State.enterPollList (s : State) (i : Slot) : State :=
  let t := s.modLink fun l => { l with pollList := insertSlot i l.pollList }
  match s.link.round with
  | .stopped => t.startRound.modLink fun l => { l with gap := l.lineGap }
  | _ => t

/-! ### Polls -/

/-- DLC begins the poll of a slot (R148): it toggles the sequence bit, forms the frame and opens the poll in flight. -/
def State.beginPoll (s : State) (i : Slot) (h : Hoist) : State :=
  (s.modRecord i fun r => { r with seqBit := !h.seqBit }).modLink fun l =>
    { l with
      poll := some ⟨i, h.pollFrame, !h.seqBit, false, l.responseTimeout, .sending⟩
      line := .sendingPoll (h.pollBytes (!h.seqBit)) (frameMicros (h.pollBytes (!h.seqBit))) }

/-- The line lets DLC begin a frame: no poll is open and no discarded reply is still arriving (R149, R155). -/
def Link.free (l : Link) : Bool := l.poll.isNone && l.line != .discarding

/-- DLC polls the next listed slot, in a round, with the line free and no HALT_ALL owed (R144, R148). -/
def State.pollNext (s : State) : State :=
  if s.link.round = .inRound ∧ s.link.free = true ∧ s.link.haltOwed = false then
    match s.link.nextSlot with
    | none => s
    | some i =>
      match s.record i with
      | none => s
      | some h => s.beginPoll i h
  else s

/-- POLL. Events of the reply before it that still wait are taken first, so that the frame shows what came of them (R148, log
27). -/
def State.takePoll (s : State) : State := s.deliverEvents.pollNext

/-- END_OF_POLL: the last stop bit ends, LINK_DE is deasserted and the response timer starts (R149) with the timeout in
force when the poll began (R159). -/
def State.takeEndOfPoll (s : State) : State :=
  match s.link.poll with
  | some p =>
    if p.stage = .sending then
      s.modLink fun l =>
        { l with poll := some { p with stage := .awaiting p.timeout }, line := .quiet, gap := 0, lineGap := Config.frameGap }
    else s
  | none => s

/-- DLC sends HALT_ALL. -/
def Link.sendHalt (l : Link) : Link :=
  { l with line := .sendingHalt (frameMicros haltAllBytes), haltOwed := false }

/-- HALT_ALL: taken when it is owed and the line is free (R155, R156). -/
def State.takeHaltAll (s : State) : State :=
  if s.link.haltOwed = true ∧ s.link.free = true then s.modLink Link.sendHalt else s

/-- ROUND_START: taken while a round is awaited and no HALT_ALL is owed; with ESTOP_N asserted its first frame is a
HALT_ALL (R144, R156). -/
def State.takeRoundStart (s : State) : State :=
  match s.link.round with
  | .between _ =>
    if s.link.haltOwed = true ∨ s.link.free = false then s
    else if s.safety.estopAsserted then s.startRound.modLink Link.sendHalt
    else s.startRound
  | _ => s

/-! ### The E-stop on the link (R155) -/

/-- The rest of the byte in progress, µs, with this much of the frame left. -/
def byteRest (left : Nat) : Nat := if left % Config.byteMicros = 0 then min left Config.byteMicros else left % Config.byteMicros

/-- The byte in progress, with this much of the frame left; at a byte's end, the one that begins (log 24). -/
def byteInProgress (bytes : List Byte) (left : Nat) : Byte :=
  bytes.getD ((frameMicros bytes - left) / Config.byteMicros) 0

/-- What the line does once a poll is aborted (R155). -/
def Link.abortLine (l : Link) (p : PollInFlight) : Link :=
  match p.stage with
  | .sending =>
    match l.line with
    | .sendingPoll bytes left => { l with line := .cutPoll (byteInProgress bytes left) (byteRest left) }
    | _ => l.endFrame
  | .awaiting _ => { l with line := .quiet }
  | .receiving _ => { l with line := .discarding }

/-- A HALT_ALL is owed, unless the round state is STOPPED (R147, R155). One that is owed already stays one: the spec does
not say whether a second assertion, taken before the first one's HALT_ALL has begun, sends another (DESIGN CHOICE, log
28). -/
def Link.oweHalt (l : Link) : Link := if l.round = .stopped then l else { l with haltOwed := true }

/-- DLC takes an ESTOP_N assertion (R155): an open poll is aborted with no miss, its slot is the last polled one, and a
HALT_ALL is owed unless the part is sending one. -/
def State.estopLink (s : State) : State :=
  match s.link.line with
  | .sendingHalt _ => s
  | _ =>
    match s.link.poll with
    | some p => ((s.modLink fun l => l.abortLine p).closePoll p.slot).modLink Link.oweHalt
    | none => s.modLink Link.oweHalt

/-! ### The deliveries of an assertion (R134) -/

/-- Whether the two deliveries of this assertion can meet on one state: the abort completes the round, whose count and
pace read the groups that GENG acts on (log 4). -/
def State.estopRace (s : State) : Bool :=
  s.link.poll.isSome && (List.finRange 8).any fun k =>
    (s.group k).state == .armed || (s.group k).state == .settling

/-- DLC takes the assertion before GENG: a free value where the order can matter (R134, log 4). -/
def State.linkFirst (s : State) : Bool := s.estopRace && Config.estopLinkFirst s.freeCount

/-- The deliveries of an assertion to DLC and to GENG, in the order of this flag (R134). -/
def State.deliverEstop (s : State) (linkFirst : Bool) : State :=
  if linkFirst then s.estopLink.estopGroups else s.estopGroups.estopLink

/-- DLC and GENG take the assertion. -/
def State.takeDelivery (s : State) : State := { s.deliverEstop s.linkFirst with freeCount := s.freeCount + 1 }

/-- A reply is being received, so that it can be taken between SLB's part of an assertion and its deliveries (R78, R185,
log 26). -/
def State.replyArriving (s : State) : Bool :=
  match s.link.poll with
  | some p => match p.stage with
    | .receiving _ => true
    | .sending | .awaiting _ => false
  | none => false

/-- An assertion that waits for the arriving reply is delivered now (log 26). -/
def State.deliverWaiting (s : State) : State :=
  if s.safety.estopWaiting then
    State.takeDelivery { s with safety := { s.safety with estopWaiting := false } }
  else s

/-! ### Judging a reply (R151) -/

/-- The number in two bytes of a frame. -/
def twoBytes (hi lo : Byte) : Nat := (wordOf hi lo).toNat

/-- The CRC over all bytes but the last two equals those two (R140). -/
def crcMatches (bytes : List Byte) : Bool :=
  bytes.drop (bytes.length - 2) == [hiByte (crc16 (bytes.take (bytes.length - 2))), loByte (crc16 (bytes.take (bytes.length - 2)))]

/-- The kind that a reply must have for the frame sent: 01 for POLL_IDENT, 00 for POLL_RUN. -/
def PollFrame.replyKind : PollFrame → BitVec 2
  | .ident => 1
  | .run => 0

/-- The reported height of a STATUS frame, at offsets 2 to 4. -/
def frameHeight (bytes : List Byte) : Nat :=
  (bytes.getD 2 0).toNat * 65536 + twoBytes (bytes.getD 3 0) (bytes.getD 4 0)

/-- The load field of a STATUS frame, at offsets 5 and 6. -/
def frameLoad (bytes : List Byte) : Nat := twoBytes (bytes.getD 5 0) (bytes.getD 6 0)

/-- The record's load field for a reply's load field (R89). -/
def readLoad (w : Nat) : Option Nat := if w = 65535 then none else some (min w Config.loadOverrange)

/-- The seven checks of a reply, in order: the first that fails names the miss (R151). -/
def judgeReply (p : PollInFlight) (early : Bool) (address : Nat) (bytes : List Byte) : Option MissReason :=
  let head := bytes.headD 0
  if early then some .early
  else if bytes.isEmpty || replyLength head ≠ some bytes.length then some .length
  else if !crcMatches bytes then some .crc
  else if (head.extractLsb' 0 6).toNat ≠ address then some .address
  else if head.extractLsb' 6 2 ≠ p.frame.replyKind then some .kind
  else if p.frame = .run ∧ (bytes.getD 7 0).getLsbD 7 ≠ p.seqBit then some .stale
  else if p.frame = .run ∧ frameHeight bytes > Config.reportedMax then some .range
  else none

/-- The bytes of a STATUS reply frame (R184). -/
def statusFrame (address : BitVec 6) (flags : Byte) (height : BitVec 24) (load : BitVec 16) (echo : Byte)
    (crc : BitVec 16) : List Byte :=
  [(0#2) ++ address, flags, height.extractLsb' 16 8, height.extractLsb' 8 8, height.extractLsb' 0 8, hiByte load,
    loByte load, echo, hiByte crc, loByte crc]

/-- The bytes of an IDENT reply frame (R184). -/
def identFrame (address : BitVec 6) (flags : Byte) (ratedLoad ratedSpeed crc : BitVec 16) : List Byte :=
  [(1#2) ++ address, flags, hiByte ratedLoad, loByte ratedLoad, hiByte ratedSpeed, loByte ratedSpeed, hiByte crc,
    loByte crc]

end Sys2Proof.Machine
end

