-- ==== Sys2Proof/Machine/Hoists.lean ====
section
/-! DEFINITION. HTAB's events (chapter 1): a record leaving its slot, loss (R19), a miss (R154), the jog end (R133), the
reply transitions (R10, R13, R17, R20, R23), and the console commands that name a slot (R8, R21, R22, R119). -/

namespace Sys2Proof.Machine

/-! ### A record leaves its slot -/

/-- The slot becomes HST_EMPTY (R1, R7, R143): the address leaves the node address map, the slot leaves the poll list,
and the release cause and released address are written. -/
def State.leaveSlot (s : State) (i : Slot) (h : Hoist) (cause : Release) : State :=
  let t := s.modSlot i fun e => { e with record := none, release := cause, releasedAddress := some h.address }
  ({ t with nodeMap := removeAddress h.address t.nodeMap }).leavePollList i

/-- The slot becomes HST_EMPTY and its attention flag is set (R10, R11, R23). -/
def State.leaveSlotNoted (s : State) (i : Slot) (h : Hoist) (cause : Release) : State :=
  (s.slotAttention i).leaveSlot i h cause

/-! ### The jog end -/

/-- SLB takes the end of the jog (R133); with no jog it finds nothing to end. -/
def State.endJog (s : State) (cause : JogEndCause) : State :=
  match s.safety.jogSlot with
  | none => s
  | some i =>
    ((({ s with
        safety := { s.safety with jogSlot := none, jogTimer := none, lastJogEnd := some ⟨i, cause⟩ } }).modRecord i
      Hoist.endJog).slotAttention i)

/-! ### Loss and misses -/

/-- The record's fields at loss (R19). -/
def Hoist.lose (h : Hoist) : Hoist :=
  { h with
    state := .lost
    demand := 0
    direction := .none
    deviation := none
    jogStart := none
    jogDistance := none
    landed := false }

/-- A record is lost (R19): COND_LOST becomes current, the slot's attention is set at every loss (R24, R158, log 17), its
group takes a loss event (R109), and a jog of it ends with JEND_CONDITION and COND_LOST (R133). -/
def State.lose (s : State) (i : Slot) (h : Hoist) : State :=
  let t := ((s.modRecord i Hoist.lose).modSlot i (SlotEntry.addCurrent .lost)).slotAttention i
  let u := match h.group with
    | some k => t.lossEvent k i (some h.missCount)
    | none => t
  if h.state = .jogging then u.endJog (.condition .lost) else u

/-- The miss count has reached the loss threshold: HTAB acts by the record's state (R154). -/
def State.thresholdEvent (s : State) (i : Slot) (h : Hoist) : State :=
  match h.state with
  | .admitting => s.leaveSlotNoted i h .admitUnanswered
  | .retiring => s.leaveSlotNoted i h .retiredUnconfirmed
  | .lost => s
  | .ready | .moving | .jogging | .stopping => s.lose i h

/-- The miss's reason and count in the record (R154 steps 1 and 2). -/
def Hoist.countMiss (h : Hoist) (reason : MissReason) (threshold : Nat) : Hoist :=
  { h with
    lastMiss := some reason
    missCount := if h.missCount < threshold then h.missCount + 1 else h.missCount }

/-- A poll of the slot's record missed (R154). -/
def State.miss (s : State) (i : Slot) (reason : MissReason) : State :=
  let t := (s.modRecord i fun h => h.countMiss reason s.link.lossThreshold).modSlot i (SlotEntry.addCurrent .linkErr)
  match t.record i with
  | none => t
  | some h => if h.missCount = s.link.lossThreshold then t.thresholdEvent i h else t

/-! ### Valid replies -/

/-- A valid reply of either kind: the miss count becomes 0 and COND_LINKERR leaves the current set (R103, R152). -/
def State.acceptReply (s : State) (i : Slot) : State :=
  (s.modRecord i fun h => { h with missCount := 0 }).modSlot i (SlotEntry.removeCurrent .linkErr)

/-- The reported fields of a STATUS reply (R4, R89). -/
def Hoist.report (h : Hoist) (flags : Byte) (height load : Nat) : Hoist :=
  { h with nodeFlags := some flags, height := some height, load := readLoad load }

/-- A lost record recovers (R20): HST_STOPPING in a stopping group, otherwise HST_READY. -/
def State.recover (s : State) (i : Slot) (h : Hoist) : State :=
  let st : HoistState := match h.group with
    | some k => if (s.group k).state = .stopping then .stopping else .ready
    | none => .ready
  (s.modSlot i (SlotEntry.removeCurrent .lost)).modRecord i fun r => { r with state := st }

/-- The transition that a STATUS reply itself causes (R13 step 2). -/
def State.statusTransition (s : State) (i : Slot) (flags : Byte) : State :=
  match s.record i with
  | none => s
  | some h =>
    match h.state with
    | .stopping => if atRest flags then s.modRecord i fun r => { r with state := .ready } else s
    | .lost => s.recover i h
    | .retiring => if brakeSet flags then s.leaveSlotNoted i h .retired else s
    | .admitting | .ready | .moving | .jogging => s

/-- The rated values of an IDENT reply are in range (R10). -/
def ratedValid (ratedLoad ratedSpeed : Nat) : Bool :=
  decide (125 ≤ ratedLoad) && decide (ratedLoad ≤ 2000) && decide (10 ≤ ratedSpeed) && decide (ratedSpeed ≤ 300)

/-- A valid IDENT reply is taken (R4, R10): the flags are written, then the admission completes or fails. -/
def State.takeIdent (s : State) (i : Slot) (flags : Byte) (ratedLoad ratedSpeed : Nat) : State :=
  let t := (s.acceptReply i).modRecord i fun h => { h with nodeFlags := some flags }
  match t.record i with
  | none => t
  | some h =>
    if ratedValid ratedLoad ratedSpeed then
      (t.modRecord i fun r =>
        { r with state := .ready, ratedLoad := some ratedLoad, ratedSpeed := some ratedSpeed }).slotAttention i
    else t.leaveSlotNoted i h .admitRefused

/-! ### Console commands -/

/-- The record that an accepted ADMIT creates (R9). -/
def Hoist.admitted (address lower upper : Nat) (trim : Int) : Hoist where
  state := .admitting
  address := address
  group := none
  ratedLoad := none
  ratedSpeed := none
  lower := lower
  upper := upper
  trim := trim
  overloadPct := 110
  underloadPct := 50
  shiftPct := 20
  jogDemand := 250
  height := none
  load := none
  nodeFlags := none
  demand := 0
  direction := .none
  deviation := none
  landed := false
  baseline := none
  jogStart := none
  jogDistance := none
  current := []
  accrued := []
  missCount := 0
  lastMiss := none
  seqBit := false

/-- ADMIT (R8, R9). -/
def State.admitSlot (s : State) (slot address : Byte) (lower upper trim : BitVec 16) : State × Answer :=
  match slotOf slot with
  | none => (s, .plain .range)
  | some i =>
    if (s.record i).isSome then (s, .plain .state)
    else if address.toNat < Config.addrMin ∨ Config.addrMax < address.toNat then (s, .plain .range)
    else if (lookupAddress address.toNat s.nodeMap).isSome then (s, .plain .duplicate)
    else if !limitsValid lower.toNat upper.toNat trim.toInt then (s, .plain .range)
    else
      let h := Hoist.admitted address.toNat lower.toNat upper.toNat trim.toInt
      let t := s.modSlot i fun e => { e with record := some h, attention := false }
      (({ t with nodeMap := insertAddress address.toNat i t.nodeMap }).enterPollList i, .plain .ok)

/-- AMEND (R21). -/
def State.amend (s : State) (slot : Byte) (lower upper trim : BitVec 16) (overload underload shift : Byte)
    (jogDemand : BitVec 16) : State × Answer :=
  match slotOf slot with
  | none => (s, .plain .range)
  | some i =>
    match s.record i with
    | none => (s, .plain .empty)
    | some h =>
      if h.state ≠ .ready ∧ h.state ≠ .lost then (s, .plain .state)
      else if !s.groupAllows h (fun g => g == .idle || g == .faulted) then (s, .plain .state)
      else if !limitsValid lower.toNat upper.toNat trim.toInt then (s, .plain .range)
      else
        let o := clampTo 100 125 overload.toNat
        let u := clampTo 10 90 underload.toNat
        let f := clampTo 5 50 shift.toNat
        let j := clampTo 50 500 jogDemand.toNat
        (s.modRecord i fun r =>
          { r with
            lower := lower.toNat
            upper := upper.toNat
            trim := trim.toInt
            overloadPct := o
            underloadPct := u
            shiftPct := f
            jogDemand := j },
          .plain (statusOf (o != overload.toNat || u != underload.toNat || f != shift.toNat || j != jogDemand.toNat)))

/-- RETIRE (R22). -/
def State.retire (s : State) (slot : Byte) : State × Answer :=
  match slotOf slot with
  | none => (s, .plain .range)
  | some i =>
    match s.record i with
    | none => (s, .plain .empty)
    | some h =>
      if h.state ≠ .ready ∧ h.state ≠ .lost ∧ h.state ≠ .admitting then (s, .plain .state)
      else if !s.groupAllows h GroupState.atRest then (s, .plain .state)
      else
        let t := s.leaveGroup i
        if h.state = .ready then
          (t.modRecord i fun r => { r with state := .retiring, demand := 0, direction := .none }, .plain .ok)
        else (t.leaveSlot i h .retiredDirect, .plain .ok)

/-- CLRFLAGS (R119). -/
def State.clearFlags (s : State) (slot : Byte) : State × Answer :=
  match slotOf slot with
  | none => (s, .plain .range)
  | some i =>
    match s.record i with
    | none => (s, .plain .empty)
    | some _ => (s.modRecord i fun h => { h with accrued := [] }, .plain .ok)

end Sys2Proof.Machine
end

