-- ==== Sys2Proof/Machine/Tracking.lean ====
section
/-! DEFINITION. TRK: the evaluation of a valid STATUS reply (chapters 4 and 5, R105, R131) and the events it hands on
(R81, R98), and the taking of a whole reply by DLC and HTAB (R13, R152 to R154). -/

namespace Sys2Proof.Machine

/-! ### The checks (R79, R80, R91 to R97, R105) -/

/-- COND_NODEFLT (R105): THERM, PHASE or DRVFLT; while HST_MOVING also a missing DRV_READY. -/
def Hoist.nodeFaulted (h : Hoist) : Bool :=
  match h.nodeFlags with
  | some f => nodeTrouble f || (h.state == .moving && !driveReady f)
  | none => false

/-- COND_OVERLOAD (R91, R92). -/
def Hoist.overloaded (h : Hoist) : Bool :=
  match h.load, h.ratedLoad with
  | some w, some rated => decide (rated * h.overloadPct < w * 100) || w == Config.loadOverrange
  | some w, none => w == Config.loadOverrange
  | none, _ => false

/-- The baseline after the capture of R94: only at the first evaluation of the move, which finds the deviation absent. -/
def Hoist.capturedBaseline (h : Hoist) : Option Nat :=
  match h.deviation, h.load with
  | none, some w => if Config.minBaseline ≤ w ∧ w < Config.loadOverrange then some w else h.baseline
  | _, _ => h.baseline

/-- COND_LOADSHIFT (R96), against the baseline after the capture. -/
def Hoist.loadShifted (h : Hoist) : Bool :=
  match h.load, h.capturedBaseline with
  | some w, some b => decide (b * h.shiftPct < ((w : Int) - b).natAbs * 100)
  | _, _ => false

/-- COND_UNDERLOAD (R97), for a group moving DOWN. -/
def Hoist.underloaded (h : Hoist) (dir : Travel) : Bool :=
  match dir, h.load, h.capturedBaseline with
  | .down, some w, some b => decide (w * 100 < b * h.underloadPct)
  | _, _, _ => false

/-- COND_LIMIT in a direction of travel (R80); also the test of JOG (R129). -/
def Hoist.atLimit (h : Hoist) (dir : Travel) : Bool :=
  match dir with
  | .up => (match h.nodeFlags with | some f => limUp f | none => false) ||
      match h.height with | some p => decide (h.upper * 10 ≤ p) | none => false
  | .down => (match h.nodeFlags with | some f => limDown f | none => false) ||
      match h.height with | some p => decide (p ≤ h.lower * 10) | none => false

/-! ### Tracking (R73 to R77) -/

/-- The deviation, µm (R73): `p` is the reported height. -/
def deviationOf (p : Nat) (reference trim : Int) : Int := (p : Int) * 100 - (reference + trim * 1000)

/-- The lead, µm (R73). -/
def leadOf (dir : Travel) (d : Int) : Int :=
  match dir with
  | .up => d
  | .down => -d

/-- The correction, µm/s (R75). -/
def correctionOf (lead : Int) (gain : Nat) : Int := divTrunc (lead * gain) 8

/-- A demand with the saturation conditions it raises (R76). -/
structure Demand where
  value : Nat
  satHigh : Bool
  satLow : Bool
  deriving DecidableEq, Repr

/-- The demand for a wanted speed `v` of a hoist rated `rated` mm/s, the reference moving at `vg` (R76). -/
def demandOf (v : Int) (rated vg : Nat) : Demand :=
  if v ≤ 0 then ⟨0, false, decide (0 < vg)⟩
  else
    let q := (v.toNat + rated / 2) / rated
    if Config.maxDemand < q then ⟨Config.maxDemand, true, false⟩ else ⟨max q Config.minDemand, false, false⟩

/-- What the tracking of a moving member computes (R71 steps 3, 4 and 6). -/
structure TrackResult where
  deviation : Int
  landed : Bool
  demand : Demand
  deriving DecidableEq, Repr

/-- The deviation, the landing and the demand of a moving member (R73 to R77). -/
def Hoist.track (h : Hoist) (g : Group) (dir : Travel) (mainsEn : Bool) (p rated : Nat) (reference : Int) : TrackResult :=
  let d := deviationOf p reference h.trim
  let landed := h.landed || (g.arrived && decide (d.natAbs ≤ g.settings.landingTol * 1000))
  let demand :=
    if landed || !mainsEn then ⟨0, false, false⟩
    else demandOf ((g.refSpeed : Int) - correctionOf (leadOf dir d) g.settings.gain) rated g.refSpeed
  ⟨d, landed, demand⟩

/-- An evaluation's outcome: the record with the fields TRK writes, and the conditions found. -/
structure Evaluation where
  hoist : Hoist
  found : CondSet
  deriving DecidableEq, Repr

/-- The evaluation of a record outside HST_MOVING and HST_JOGGING: node conditions and overload (R71). -/
def Hoist.evaluateAtRest (h : Hoist) : Evaluation :=
  ⟨h, CondSet.ofTest fun
    | .nodeFault => h.nodeFaulted
    | .overload => h.overloaded
    | _ => false⟩

/-- The direction of a jog, as the record holds it. -/
def Direction.travel : Direction → Option Travel
  | .none => Option.none
  | .up => some .up
  | .down => some .down

/-- The evaluation of a HST_JOGGING hoist: node conditions, overload, LIMIT in the jog direction (R71, R131). -/
def Hoist.evaluateJog (h : Hoist) : Evaluation :=
  ⟨h, CondSet.ofTest fun
    | .nodeFault => h.nodeFaulted
    | .overload => h.overloaded
    | .limit => match h.direction.travel with
      | some dir => h.atLimit dir
      | none => false
    | _ => false⟩

/-- The conditions of a HST_MOVING member (R71, R79, R80, R91 to R97, R105). -/
def Hoist.movingFindings (h : Hoist) (g : Group) (dir : Travel) (t : TrackResult) : CondSet :=
  CondSet.ofTest fun
    | .nodeFault => h.nodeFaulted
    | .overload => h.overloaded
    | .limit => h.atLimit dir
    | .xdev => decide (2 * g.settings.levelTol * 1000 < t.deviation.natAbs)
    | .underload => h.underloaded dir
    | .dev => decide (g.settings.levelTol * 1000 < t.deviation.natAbs)
    | .loadShift => h.loadShifted
    | .satHigh => t.demand.satHigh
    | .satLow => t.demand.satLow
    | _ => false

/-- The evaluation of a HST_MOVING member against its group (R71). Where an input of the tracking is absent, which no
reachable state has (R72), it is evaluated as at rest (log 16). -/
def Hoist.evaluateMoving (h : Hoist) (g : Group) (mainsEn : Bool) : Evaluation :=
  match g.direction, g.reference, h.height, h.ratedSpeed with
  | some dir, some reference, some p, some rated =>
    let t := h.track g dir mainsEn p rated reference
    ⟨{ h with
        baseline := h.capturedBaseline
        deviation := some t.deviation
        landed := t.landed
        demand := t.demand.value
        direction := if t.demand.value = 0 then .none else dir.direction },
      h.movingFindings g dir t⟩
  | _, _, _, _ => h.evaluateAtRest

/-- The evaluation of a record in the state it holds (R71). -/
def State.evaluation (s : State) (h : Hoist) : Evaluation :=
  match h.state with
  | .moving => match h.group with
    | some k => h.evaluateMoving (s.group k) s.mainsEn
    | none => h.evaluateAtRest
  | .jogging => h.evaluateJog
  | .admitting | .ready | .stopping | .lost | .retiring => h.evaluateAtRest

/-! ### What the evaluation hands on -/

/-- The cause that a member of group `k` hands (R81, R98): the highest-priority current condition that is stop-class, or
maskable and in the group's stop mask, with its value (R107). -/
def State.detected (s : State) (k : GroupId) (h : Hoist) : Option (Cond × Option Int) :=
  (h.current.top fun c => c.isStop || (s.group k).settings.stopMask.masks c).map fun c => (c, h.causeValue c)

/-- The condition event of a member (R81, R98). -/
def State.handCondition (s : State) (i : Slot) : State :=
  match s.record i with
  | none => s
  | some h =>
    match h.group with
    | none => s
    | some k =>
      match s.detected k h with
      | none => s
      | some (c, value) => s.conditionEvent k i c value

/-- The landed event, if the member's landed field changed from no to yes in this evaluation (R81). -/
def State.handLanded (s : State) (k : Option GroupId) (before after : Bool) : State :=
  match k with
  | some k => if before = false ∧ after = true then s.landedEvent k else s
  | none => s

/-- The stopped event, if the reply took the member from HST_STOPPING to HST_READY (R17, R81, R113). -/
def State.handStopped (s : State) (k : Option GroupId) (stopped : Bool) : State :=
  match k with
  | some k => if stopped then s.testStop k else s
  | none => s

/-- The jog has travelled its distance (R131). -/
def Hoist.jogDone (h : Hoist) : Bool :=
  match h.height, h.jogStart, h.jogDistance with
  | some p, some start, some d => decide (d * 1000 ≤ ((p : Int) - start).natAbs * 100)
  | _, _, _ => false

/-- SLB takes the result of the jogging hoist's evaluation (R131). -/
def State.jogProgress (s : State) (i : Slot) : State :=
  match s.record i with
  | none => s
  | some h =>
    if h.state = .jogging then
      match h.current.top Cond.isStop with
      | some c => s.endJog (.condition c)
      | none => if h.jogDone then s.endJog .distance else s
    else s

/-- The events that the evaluation of a HST_MOVING member raises for its group (R81), none where it raises nothing. `before`
is its landed field before the evaluation. -/
def State.movingEvents (s : State) (i : Slot) (before : Bool) : Option MemberEvents :=
  match s.record i with
  | none => none
  | some h =>
    match h.state, h.group with
    | .moving, some k =>
      let e : MemberEvents := ⟨k, i, s.detected k h, !before && h.landed⟩
      if e.condition.isSome || e.landed then some e else none
    | _, _ => none

/-- The evaluation of the record in a slot (R71, R81, R103, R131): the record and its current set are written, then the
events are handed on. Those of a moving member can meet a stop of its group: whether they wait, so that the stop comes
between the reply and its events, is a free value (R87, log 27). `stopped` tells whether the same reply returned the
record from HST_STOPPING. -/
def State.evaluate (s : State) (i : Slot) (stopped : Bool) : State :=
  match s.record i with
  | none => s
  | some h =>
    let ev := s.evaluation h
    let t := s.modSlot i fun e => ({ e with record := some ev.hoist }).writeCurrent ev.found
    let hand (u : State) : State :=
      ((((u.handCondition i).handLanded h.group h.landed ev.hoist.landed).handStopped h.group stopped).jogProgress i)
    match t.movingEvents i h.landed with
    | none => hand t
    | some e =>
      let u : State := { t with freeCount := t.freeCount + 1 }
      if Config.eventsWait t.freeCount then { u with eventsWaiting := some e } else hand u

/-! ### Taking a reply -/

/-- The reply took the record from HST_STOPPING to HST_READY. -/
def State.reportsStopped (s : State) (i : Slot) (flags : Byte) : Bool :=
  s.hoistState i == some .stopping && atRest flags

/-- A valid STATUS reply is taken (R4, R13, R152). -/
def State.takeStatus (s : State) (i : Slot) (flags : Byte) (height load : Nat) : State :=
  let t := (s.acceptReply i).modRecord i fun h => h.report flags height load
  (t.statusTransition i flags).evaluate i (t.reportsStopped i flags)

/-- A valid reply is applied by its kind (R13, R184). -/
def State.applyReply (s : State) (p : PollInFlight) (bytes : List Byte) : State :=
  match p.frame with
  | .run => s.takeStatus p.slot (bytes.getD 1 0) (frameHeight bytes) (frameLoad bytes)
  | .ident =>
    s.takeIdent p.slot (bytes.getD 1 0) (twoBytes (bytes.getD 2 0) (bytes.getD 3 0))
      (twoBytes (bytes.getD 4 0) (bytes.getD 5 0))

/-- The reply's kind does not suit the record as it stands: a STATUS reply for a HST_ADMITTING record, or an IDENT reply
for any other (R10). The frame of a poll follows the record's state (R148), so check 5 of R151 says the same of every
state that a run reaches. -/
def Hoist.kindMismatch (h : Hoist) (p : PollInFlight) : Bool := h.pollFrame != p.frame

/-- A reply that ends a poll is judged and taken, or misses (R151 to R154). -/
def State.judgeAndTake (s : State) (p : PollInFlight) (early : Bool) (bytes : List Byte) : State :=
  match s.record p.slot with
  | none => s
  | some h =>
    match judgeReply p early h.address bytes with
    | some reason => s.miss p.slot reason
    | none => if h.kindMismatch p then s.miss p.slot .kind else s.applyReply p bytes

/-- The frame of a reply has ended with these bytes (R149), with `rest` µs left of the frame gap after its last byte: an
orphaned poll ends with nothing written (R153), another is judged, and an assertion that waits for the reply is delivered
(log 26); the rest of an aborted reply is discarded (R155); a frame outside a reception is discarded (R149). -/
def State.takeFrame (s : State) (bytes : List Byte) (rest : Nat) : State :=
  match s.link.poll with
  | some p =>
    match p.stage with
    | .receiving early => ((if p.orphaned then s else s.judgeAndTake p early bytes).endPoll p.slot rest).deliverWaiting
    | .sending | .awaiting _ => s
  | none => if s.link.line = .discarding then s.modLink fun l => l.endDiscard rest else s

/-- The response timer expires (R149): a miss with MISS_TIMEOUT, or the end of an orphaned poll (R153). The last byte on the
line was the poll's own, one response timeout ago. -/
def State.takeResponseExpiry (s : State) : State :=
  match s.link.poll with
  | some p =>
    match p.stage with
    | .awaiting _ => (if p.orphaned then s else s.miss p.slot .timeout).endPoll p.slot (Config.frameGap - p.timeout)
    | .sending | .receiving _ => s
  | none => s

/-- The first start bit of a reply, `elapsed` µs after the end of the poll (R149): up to the response timeout the timer
stops and the reply is received, early or not; later than that no start bit came by the timeout, which is taken. With no poll
open, as after an abort (R155), the bytes that begin here are discarded, and that they move no frame gap either is the model's
choice (DESIGN CHOICE, log 31). -/
def State.takeFirstStartBit (s : State) (elapsed : Nat) : State :=
  match s.link.poll with
  | some p =>
    match p.stage with
    | .awaiting _ =>
      if elapsed ≤ p.timeout then
        s.modLink fun l => { l with poll := some { p with stage := .receiving (decide (elapsed < Config.turnaroundMin)) } }
      else s.takeResponseExpiry
    | .sending | .receiving _ => s
  | none => s

end Sys2Proof.Machine
end

