-- ==== Sys2Proof/Machine/Lines.lean ====
section
/-! DEFINITION. SLB (chapter 7): the lines and their edges, PERMIT, the jog and its commands; LINKCFG (R157 to R159); and
RESTART over every block (R120). -/

namespace Sys2Proof.Machine

/-! ### The lines -/

/-- MAINS_EN is deasserted: HTAB writes demand 0 into every moving and jogging record (R78). -/
def State.cutPower (s : State) : State := s.mapSlots fun _ e => e.modRecord Hoist.cutPower

/-- SLB's own part of an assertion, before the deliveries: the level, the latch, ESTOP_SEEN, the demands and the jog end
(R124, R134). -/
def State.assertEstop (s : State) : State :=
  State.endJog
    ({ s with
        safety := { s.safety with estopAsserted := true, permit := false, estopSeen := true } : State }).cutPower .estop

/-- ESTOP_N goes low (R134); a line that is low already has no such edge (R124, log 5). While a reply is arriving a free
value can have it taken, evaluated without power, before DLC and GENG take the assertion (R78, R185, log 26). -/
def State.takeEstopAssertion (s : State) : State :=
  if s.safety.estopAsserted then s
  else
    let t := s.assertEstop
    if t.replyArriving && Config.estopAfterReply t.freeCount then
      { t with safety := { t.safety with estopWaiting := true }, freeCount := t.freeCount + 1 }
    else t.takeDelivery

/-- SLB takes a release of ESTOP_N (R135); a line that is high already has no such edge (R124, log 5). -/
def State.releaseEstop (s : State) : State :=
  if s.safety.estopAsserted then
    { s with safety := { s.safety with estopAsserted := false, estopCleared := true } }
  else s

/-- ESTOP_N goes high. SLB delivers its events in the order in which it takes them, so an assertion that waits is delivered
first (log 26); likewise at an edge of a cue line. -/
def State.takeEstopRelease (s : State) : State := s.deliverWaiting.releaseEstop

/-- The level of a cue line (R123). -/
def Safety.cueLevel (f : Safety) : CueLine → Bool
  | .cue0 => f.cue0
  | .cue1 => f.cue1

/-- A cue line takes a level (R124). -/
def Safety.setCue (f : Safety) (line : CueLine) (high : Bool) : Safety :=
  match line with
  | .cue0 => { f with cue0 := high }
  | .cue1 => { f with cue1 := high }

/-- The start source of a cue line (R43). -/
def CueLine.source : CueLine → StartSource
  | .cue0 => .cue0
  | .cue1 => .cue1

/-- The hold source of a cue line (R128). -/
def CueLine.holds : CueLine → HoldSource
  | .cue0 => .line0
  | .cue1 => .line1

/-- SLB takes a rise of a cue line (R124, R125). -/
def State.riseCue (s : State) (line : CueLine) : State :=
  if s.safety.cueLevel line then s
  else State.startAll { s with safety := s.safety.setCue line true } (CueLine.source line)

/-- A cue line rises. -/
def State.takeCueRise (s : State) (line : CueLine) : State := s.deliverWaiting.riseCue line

/-- SLB takes a fall of a cue line (R124, R128): every group moving on that line loses its hold. -/
def State.fallCue (s : State) (line : CueLine) : State :=
  if s.safety.cueLevel line then
    (List.finRange 8).foldl
      (fun t k =>
        if (t.group k).state = .moving ∧ (t.group k).holdSource = some (CueLine.holds line) then t.loseHold k else t)
      { s with safety := s.safety.setCue line false }
  else s

/-- A cue line falls. -/
def State.takeCueFall (s : State) (line : CueLine) : State := s.deliverWaiting.fallCue line

/-! ### SLB's commands -/

/-- PERMIT (R136). -/
def State.takePermit (s : State) : State × Answer :=
  if s.safety.estopAsserted then (s, .plain .state)
  else ({ s with safety := { s.safety with permit := true } }, .plain .ok)

/-- A hoist is HST_JOGGING. -/
def State.anyJogging (s : State) : Bool := (List.finRange 32).any fun i => s.hoistState i == some .jogging

/-- An accepted JOG starts (R130): `p` is the reported height. -/
def State.startJog (s : State) (i : Slot) (dir : Travel) (distance p : Nat) : State :=
  let t := s.modRecord i fun h =>
    { h with
      state := .jogging
      demand := h.jogDemand
      direction := dir.direction
      jogStart := some p
      jogDistance := some distance }
  { t with safety := { t.safety with jogSlot := some i, jogTimer := some Config.jogHoldMicros } }

/-- JOG (R129, R130). -/
def State.takeJog (s : State) (slot direction : Byte) (distance : BitVec 16) : State × Answer :=
  match slotOf slot with
  | none => (s, .plain .range)
  | some i =>
    match travelOf direction with
    | none => (s, .plain .range)
    | some dir =>
      if distance.toNat < 1 ∨ Config.jogDistMax < distance.toNat then (s, .plain .range)
      else
        match s.record i with
        | none => (s, .plain .empty)
        | some h =>
          if h.state ≠ .ready then (s, .plain .state)
          else if !s.groupAllows h GroupState.atRest then (s, .plain .state)
          else if s.anyJogging then (s, .plain .state)
          else if !s.mainsEn then (s, .plain .noPower)
          else
            match h.height with
            | none => (s, .plain .notReady)
            | some p =>
              if h.atLimit dir then (s, .plain .limit)
              else (s.startJog i dir distance.toNat p, .plain .ok)

/-- HOLD 8 (R132). -/
def State.holdJog (s : State) : State × Answer :=
  if s.anyJogging then
    ({ s with safety := { s.safety with jogTimer := some Config.jogHoldMicros } }, .plain .ok)
  else (s, .plain .state)

/-- HALT 8 (R132). -/
def State.haltJog (s : State) : State × Answer := (s.endJog .halt, .plain .ok)

/-- HOLD with its argument byte: a group 0 to 7, or 8 for the jog (R126, R132). -/
def State.takeHold (s : State) (group : Byte) : State × Answer :=
  if group = 8 then s.holdJog
  else
    match groupOf group with
    | some k => s.holdGroup k
    | none => (s, .plain .range)

/-- HALT with its argument byte: a group 0 to 7, or 8 for the jog (R47, R132). -/
def State.takeHalt (s : State) (group : Byte) : State × Answer :=
  if group = 8 then s.haltJog
  else
    match groupOf group with
    | some k => (s.haltGroup k, .plain .ok)
    | none => (s, .plain .range)

/-- The jog hold timer expires (R132). -/
def State.takeJogExpiry (s : State) : State := if s.safety.jogTimer.isSome then s.endJog .hold else s

/-! ### LINKCFG -/

/-- A lowered threshold acts on a slot's count (R158). -/
def State.lowerCount (new : Nat) (s : State) (i : Slot) : State :=
  match s.record i with
  | none => s
  | some h =>
    if h.state = .ready ∧ new < h.missCount then
      (s.modRecord i fun r => { r with missCount := new }).lose i { h with missCount := new }
    else if h.state = .lost then s.modRecord i fun r => { r with missCount := new }
    else s

/-- A raised threshold acts on a slot's count (R158). -/
def State.raiseCount (new : Nat) (s : State) (i : Slot) : State :=
  if s.hoistState i = some .lost then s.modRecord i fun r => { r with missCount := new } else s

/-- A new threshold acts on the miss counts, slots in ascending order (R158). -/
def State.applyThreshold (s : State) (old new : Nat) : State :=
  if new < old then (List.finRange 32).foldl (State.lowerCount new) s
  else if old < new then (List.finRange 32).foldl (State.raiseCount new) s
  else s

/-- LINKCFG (R157 to R159). -/
def State.configureLink (s : State) (timeout : BitVec 16) (threshold : Byte) (idle : BitVec 16) : State × Answer :=
  if s.fastCondition then (s, .plain .state)
  else
    let t := clampTens 50 1000 timeout.toNat
    let n := clampTo 1 7 threshold.toNat
    let w := clampTens 50 500 idle.toNat
    ((s.modLink fun l => { l with responseTimeout := t, lossThreshold := n, idleInterval := w }).applyThreshold
        s.link.lossThreshold n,
      .plain (statusOf (t != timeout.toNat || n != threshold.toNat || w != idle.toNat)))

/-! ### RESTART -/

/-- RESTART acts on a slot (R26). -/
def SlotEntry.restart (e : SlotEntry) : SlotEntry :=
  { e with record := e.record.map fun h => { h with accrued := [], baseline := none }, attention := false }

/-- The block effects of an accepted RESTART (R26, R52, R120, R138, R161, R179). -/
def State.restartBlocks (s : State) : State :=
  { (s.mapSlots fun _ e => e.restart).mapGroups Group.restart with
    safety := { s.safety with estopSeen := false, estopCleared := false, lastJogEnd := none }
    port := { s.port with cursorBlock := .hoistStatus, cursorStart := 0, firstLook := false, walk := none } }

/-- RESTART (R120, R121). -/
def State.takeRestart (s : State) : State × Answer :=
  if s.fastCondition then (s, .plain .state) else (s.restartBlocks.repostAll, .plain .ok)

/-! ### Timer expiries of a group -/

/-- The step timer expires (R57): taken while it runs (log 5). -/
def State.takeStepExpiry (s : State) (k : GroupId) : Option State :=
  if (s.group k).stepTimer.isSome then
    ((s.group k).profileStep (s.minRatedSpeed k)).map fun g => s.modGroup k fun _ => g
  else some s

/-- The hold timer expires (R127): taken while it runs. -/
def State.takeHoldExpiry (s : State) (k : GroupId) : State :=
  if (s.group k).holdTimer.isSome then s.loseHold k else s

/-- The landing timer expires (R85): taken while it runs. R85 has a member unlanded at every expiry: where all have landed,
the last one's landed event waits, and it is taken first (R87, log 27). -/
def State.takeLandingExpiry (s : State) (k : GroupId) : State :=
  let t := if s.allLanded k then s.deliverEvents else s
  if (t.group k).landingTimer.isSome then t.landingExpiry k else t

/-- The stop timer expires (R114): taken while it runs. -/
def State.takeStopExpiry (s : State) (k : GroupId) : State :=
  if (s.group k).stopTimer.isSome then s.stopExpiry k else s

end Sys2Proof.Machine
end

