-- ==== Sys2Proof/Machine/Blocks.lean ====
section
/-! DEFINITION. The LOOK blocks and the SUMMARY bytes (R175, R183): each formed from the state as it stands, every field
written as R181 gives. -/

namespace Sys2Proof.Machine

/-- Hoist STATUS, 14 bytes. -/
def State.statusBlock (s : State) (i : Slot) : List Byte :=
  let e := s.slot i
  match e.record with
  | some h =>
    be 1 i.val ++ be 1 h.state.code ++ beOpt 1 (h.group.map (·.val)) ++ be 1 (yesNo e.attention) ++ be 1 e.release.code ++
      beOpt 1 e.releasedAddress ++ be 1 (yesNo h.nodeFlags.isSome) ++ [h.nodeFlags.getD 0] ++ be 2 (condBits h.current) ++
      be 2 (condBits h.accrued) ++ be 1 h.missCount ++ beOpt 1 (h.lastMiss.map (·.code))
  | none =>
    be 1 i.val ++ be 1 0 ++ beOpt 1 none ++ be 1 (yesNo e.attention) ++ be 1 e.release.code ++
      beOpt 1 e.releasedAddress ++ be 1 0 ++ [0] ++ be 2 0 ++ be 2 0 ++ be 1 0 ++ beOpt 1 none

/-- Hoist CONFIG, 17 bytes. -/
def State.configBlock (s : State) (i : Slot) : List Byte :=
  match s.record i with
  | some h =>
    be 1 i.val ++ be 1 h.address ++ beOpt 2 h.ratedLoad ++ beOpt 2 h.ratedSpeed ++ be 2 h.lower ++ be 2 h.upper ++
      beInt 2 h.trim ++ be 1 h.overloadPct ++ be 1 h.underloadPct ++ be 1 h.shiftPct ++ be 2 h.jogDemand
  | none =>
    be 1 i.val ++ beOpt 1 none ++ beOpt 2 none ++ beOpt 2 none ++ beOpt 2 none ++ beOpt 2 none ++ beIntOpt 2 none ++
      beOpt 1 none ++ beOpt 1 none ++ beOpt 1 none ++ beOpt 2 none

/-- Hoist TRACK, 21 bytes. -/
def State.trackBlock (s : State) (i : Slot) : List Byte :=
  match s.record i with
  | some h =>
    be 1 i.val ++ beOpt 3 h.height ++ beOpt 2 h.load ++ beOpt 2 h.baseline ++ be 2 h.demand ++ be 1 h.direction.code ++
      beIntOpt 4 h.deviation ++ be 1 (yesNo h.landed) ++ beOpt 3 h.jogStart ++ beOpt 2 h.jogDistance
  | none =>
    be 1 i.val ++ beOpt 3 none ++ beOpt 2 none ++ beOpt 2 none ++ beOpt 2 none ++ beOpt 1 none ++ beIntOpt 4 none ++
      beOpt 1 none ++ beOpt 3 none ++ beOpt 2 none

/-- The four first-fault fields, 10 bytes. -/
def firstFaultBytes : Option FirstFault → List Byte
  | some f => be 1 f.cause.code ++ beOpt 1 (f.slot.map (·.val)) ++ beIntOpt 4 f.value ++ beIntOpt 4 f.reference
  | none => beOpt 1 none ++ beOpt 1 none ++ beIntOpt 4 none ++ beIntOpt 4 none

/-- The three pending-fault fields, 6 bytes. -/
def pendingFaultBytes : Option PendingFault → List Byte
  | some f => be 1 f.cause.code ++ be 1 f.slot.val ++ beIntOpt 4 f.value
  | none => beOpt 1 none ++ beOpt 1 none ++ beIntOpt 4 none

/-- The group flags byte: bit 0 HOLDLOST, bit 1 STOPTIME, bit 2 RETARGET_LATE. -/
def Group.flagBits (g : Group) : Nat := yesNo g.holdLost + 2 * yesNo g.stopTime + 4 * yesNo g.retargetLate

/-- Group STATE, 52 bytes. -/
def State.groupStateBlock (s : State) (k : GroupId) : List Byte :=
  let g := s.group k
  be 1 k.val ++ be 1 g.state.code ++ be 4 (slotBits fun i => decide (i ∈ g.members)) ++ be 1 (yesNo g.attention) ++
    beOpt 1 (g.direction.map (·.code)) ++ beOpt 4 g.cruise ++ be 1 (yesNo g.cruiseLimited) ++ beIntOpt 4 g.startRef ++
    beIntOpt 4 g.reference ++ be 2 g.residue ++ be 4 g.refSpeed ++ be 1 (yesNo g.arrived) ++ beOpt 2 g.stagedSpeed ++
    beOpt 2 g.stagedTarget ++ beOpt 1 (g.holdSource.map (·.code)) ++ be 1 g.settleRemaining ++
    beOpt 1 (g.stopCause.map (·.code)) ++ be 1 g.flagBits ++ firstFaultBytes g.firstFault ++
    pendingFaultBytes g.pendingFault

/-- Group CONFIG, 13 bytes: the index and the nine settings in the order of SETGROUP. -/
def State.groupConfigBlock (s : State) (k : GroupId) : List Byte :=
  let t := (s.group k).settings
  be 1 k.val ++ be 1 t.levelTol ++ be 1 t.gain ++ be 1 t.landingTol ++ be 1 t.stopMask.code ++ be 1 t.stepPeriod ++
    be 1 t.settleRounds ++ be 2 t.holdTimeout ++ be 2 t.stopTimeout ++ be 2 t.landingTimeout

/-- One cue entry, 8 bytes; an entry beyond the queue's length is all ones. -/
def cueBytes : Option Cue → List Byte
  | some c => be 2 c.target ++ be 2 c.cruise ++ be 2 c.accel ++ be 1 c.source.code ++ beOpt 1 c.source.afterGroup
  | none => beOpt 8 none

/-- Group QUEUE, 34 bytes. -/
def State.groupQueueBlock (s : State) (k : GroupId) : List Byte :=
  let q := (s.group k).queue
  be 1 k.val ++ be 1 q.length ++ cueBytes q[0]? ++ cueBytes q[1]? ++ cueBytes q[2]? ++ cueBytes q[3]?

/-- The levels byte of the LINES block. -/
def State.levelBits (s : State) : Nat :=
  yesNo s.safety.estopAsserted + 2 * yesNo s.safety.cue0 + 4 * yesNo s.safety.cue1 + 8 * yesNo s.mainsEn +
    16 * yesNo s.safety.permit + 32 * yesNo s.safety.estopSeen + 64 * yesNo s.safety.estopCleared

/-- Device LINES, 10 bytes. -/
def State.linesBlock (s : State) : List Byte :=
  be 1 s.levelBits ++ beOpt 1 (s.safety.jogSlot.map (·.val)) ++ beOpt 1 (s.safety.lastJogEnd.map (·.slot.val)) ++
    beOpt 1 (s.safety.lastJogEnd.map (·.cause.code)) ++ beOpt 1 (s.safety.lastJogEnd.bind (·.cause.cond)) ++
    be 2 s.link.responseTimeout ++ be 1 s.link.lossThreshold ++ be 2 s.link.idleInterval

/-- The block of a record (R171, R174); the index lies within the kind's range wherever a LOOK or continue reads. -/
def State.block (s : State) (b : LookBlock) (index : Nat) : List Byte :=
  match b with
  | .hoistStatus => s.statusBlock (Fin.ofNat 32 index)
  | .hoistConfig => s.configBlock (Fin.ofNat 32 index)
  | .hoistTrack => s.trackBlock (Fin.ofNat 32 index)
  | .groupState => s.groupStateBlock (Fin.ofNat 8 index)
  | .groupConfig => s.groupConfigBlock (Fin.ofNat 8 index)
  | .groupQueue => s.groupQueueBlock (Fin.ofNat 8 index)
  | .deviceLines => s.linesBlock

/-- The fixed length of each block (R183). -/
def LookBlock.length : LookBlock → Nat
  | .hoistStatus => 14
  | .hoistConfig => 17
  | .hoistTrack => 21
  | .groupState => 52
  | .groupConfig => 13
  | .groupQueue => 34
  | .deviceLines => 10

/-- The six bytes of SUMMARY (R175, R183). -/
def State.summaryBytes (s : State) : List Byte :=
  be 4 (slotBits fun i => (s.slot i).attention) ++ be 1 (groupBits fun k => (s.group k).attention) ++
    be 1 (yesNo s.safety.estopSeen + 2 * yesNo s.safety.estopCleared)

end Sys2Proof.Machine
end

