-- ==== Sys2Proof/Machine/Console.lean ====
section
/-! DEFINITION. CPORT (chapter 9): LOOK, the continue byte, SUMMARY and CLRATTN, the taking of a command, the bytes of a
transaction and the CS_N edges. -/

namespace Sys2Proof.Machine

/-- Changes the state of CPORT. -/
def State.modPort (s : State) (f : Port → Port) : State := { s with port := f s.port }

/-! ### CPORT's own commands -/

/-- The index that a LOOK reads (R171 checks 3 and 4): the argument, the cursor's start for 0xFF, 0 for the device. -/
def Port.lookIndex (p : Port) (k : LookKind) (index : Byte) : Option Nat :=
  match k with
  | .device => some 0
  | .hoist | .group =>
    if index = 0xFF then (if p.cursorStart < k.count then some p.cursorStart else none)
    else if index.toNat < k.count then some index.toNat
    else none

/-- The record and block that a LOOK names (R171 checks 1 to 4). -/
def Port.lookTarget (p : Port) (kind block index : Byte) : Option WalkPosition :=
  match lookKindOf kind with
  | none => none
  | some k =>
    match lookBlockOf k block with
    | none => none
    | some b =>
      match p.lookIndex k index with
      | none => none
      | some n => some ⟨b, n⟩

/-- The port after an accepted LOOK: the walk stands at the record read, and the first LOOK of the transaction sets the
cursor (R171). -/
def Port.looked (p : Port) (w : WalkPosition) : Port :=
  if p.firstLook then { p with walk := some w }
  else { p with walk := some w, cursorBlock := w.block, cursorStart := w.index, firstLook := true }

/-- LOOK (R171). -/
def State.takeLook (s : State) (kind block index : Byte) : State × Answer :=
  match s.port.lookTarget kind block index with
  | none => (s, .plain .range)
  | some w => (s.modPort fun p => p.looked w, ⟨.ok, s.block w.block w.index⟩)

/-- The record that a continue reads (R173). -/
def Port.continueTarget (p : Port) : WalkPosition :=
  match p.walk with
  | some w => ⟨w.block, (w.index + 1) % w.block.kind.count⟩
  | none => ⟨p.cursorBlock, p.cursorStart⟩

/-- The continue byte (R173). -/
def State.takeContinue (s : State) : State × Answer :=
  let w := s.port.continueTarget
  (s.modPort fun p => { p with walk := some w }, ⟨.ok, s.block w.block w.index⟩)

/-- SUMMARY (R175). -/
def State.takeSummary (s : State) : State × Answer := (s, ⟨.ok, s.summaryBytes⟩)

/-- CLRATTN (R176). -/
def State.clearAttention (s : State) (kind index : Byte) : State × Answer :=
  match lookKindOf kind with
  | none => (s, .plain .range)
  | some .hoist =>
    match slotOf index with
    | some i => (s.modSlot i fun e => { e with attention := false }, .plain .ok)
    | none => (s, .plain .range)
  | some .group =>
    match groupOf index with
    | some k => (s.modGroup k fun g => { g with attention := false }, .plain .ok)
    | none => (s, .plain .range)
  | some .device => ({ s with safety := { s.safety with estopSeen := false, estopCleared := false } }, .plain .ok)

/-! ### Taking a command -/

/-- The owner's work on a command with its argument bytes (R164, R169, R182). -/
def State.ownerTakes (s : State) : ConsoleCode → List Byte → State × Answer
  | .look, [kind, block, index] => s.takeLook kind block index
  | .summary, [] => s.takeSummary
  | .clrattn, [kind, index] => s.clearAttention kind index
  | .admitHoist, [slot, address, l1, l0, u1, u0, t1, t0] =>
    s.admitSlot slot address (wordOf l1 l0) (wordOf u1 u0) (wordOf t1 t0)
  | .amend, [slot, l1, l0, u1, u0, t1, t0, ovl, und, shift, j1, j0] =>
    s.amend slot (wordOf l1 l0) (wordOf u1 u0) (wordOf t1 t0) ovl und shift (wordOf j1 j0)
  | .retire, [slot] => s.retire slot
  | .assign, [slot, group] => s.assign slot group
  | .clrflags, [slot] => s.clearFlags slot
  | .setgroup, [group, level, gain, landing, mask, step, settle, h1, h0, s1, s0, l1, l0] =>
    s.setGroup group level gain landing mask step settle (wordOf h1 h0) (wordOf s1 s0) (wordOf l1 l0)
  | .queue, [group, t1, t0, c1, c0, a1, a0, source, after] =>
    s.queueCue group (wordOf t1 t0) (wordOf c1 c0) (wordOf a1 a0) source after
  | .flush, [group] => s.flush group
  | .arm, [group] => s.arm group
  | .go, [group] => s.go group
  | .hold, [group] => s.takeHold group
  | .halt, [group] => s.takeHalt group
  | .stagespd, [group, c1, c0] => s.stageSpeed group (wordOf c1 c0)
  | .stagetgt, [group, t1, t0] => s.stageTarget group (wordOf t1 t0)
  | .ackfault, [group] => s.ackFault group
  | .jog, [slot, direction, d1, d0] => s.takeJog slot direction (wordOf d1 d0)
  | .linkcfg, [t1, t0, threshold, i1, i0] => s.configureLink (wordOf t1 t0) threshold (wordOf i1 i0)
  | .permit, [] => s.takePermit
  | .restart, [] => s.takeRestart
  | _, _ => (s, .plain .unknown)

/-- The answer is placed in the response buffer: the turnaround, the status, the data (R165). -/
def respond (r : State × Answer) : State :=
  r.1.modPort fun p =>
    { p with phase := .response turnaroundByte (r.2.status.code :: r.2.data) false, miso := some turnaroundByte }

/-- Any command but LOOK and continue makes the walk position absent, and a refused LOOK does too (R171, R173). -/
def State.dropWalk (s : State) : State := s.modPort fun p => { p with walk := none }

/-- CPORT takes a command with its argument bytes, whole (R164). -/
def State.takeCommand (s : State) (code : ConsoleCode) (args : List Byte) : State :=
  respond (s.dropWalk.ownerTakes code args)

/-! ### The bytes of a transaction -/

/-- An unknown command byte (R166): STS_UNKNOWN, and then the transaction ignores every byte (log 23). -/
def State.takeUnknown (s : State) : State :=
  s.modPort fun p =>
    { p with phase := .response turnaroundByte [Status.code .unknown] true, miso := some turnaroundByte }

/-- A byte received in the command phase (R163, R164, R166, R173). -/
def State.commandByte (s : State) (b : Byte) : State :=
  if b = nullByteValue then s.modPort fun p => { p with miso := some turnaroundByte }
  else if b = continueByteValue then respond s.takeContinue
  else
    match ConsoleCode.ofByte b with
    | none => s.takeUnknown
    | some c =>
      if c.argCount = 0 then s.takeCommand c []
      else s.modPort fun p => { p with phase := .arguments c [], miso := some turnaroundByte }

/-- A byte received in the arguments phase (R163, R164): the last one takes the command. -/
def State.argumentByte (s : State) (code : ConsoleCode) (got : List Byte) (b : Byte) : State :=
  if got.length + 1 < code.argCount then
    s.modPort fun p => { p with phase := .arguments code (got ++ [b]), miso := some turnaroundByte }
  else s.takeCommand code (got ++ [b])

/-- The response phase returns its next byte; after the last one the phase is command, or ignoring after STS_UNKNOWN
(R165, R166). -/
def Port.returnByte (p : Port) (next : Byte) (rest : List Byte) (thenIgnore : Bool) : Port :=
  { p with
    miso := some next
    phase := match rest with
      | [] => if thenIgnore then .ignoring else .command
      | b :: more => .response b more thenIgnore }

/-- A byte is received at its eighth SCK edge (R163): its meaning is the phase's. With CS_N high, and after a PORST_N
that found CS_N low, it is disregarded. -/
def State.receiveByte (s : State) (b : Byte) : State :=
  match s.port.phase with
  | .closed => s
  | .command => s.commandByte b
  | .arguments code got => s.argumentByte code got b
  | .response next rest thenIgnore => s.modPort fun p => p.returnByte next rest thenIgnore
  | .ignoring => s.modPort fun p => { p with miso := some turnaroundByte }

/-- Bytes are received one after another, and each can end a slow wait (R146). -/
def State.receiveBytes (s : State) (bytes : List Byte) : State := bytes.foldl (fun t b => (t.receiveByte b).repace) s

/-- The arguments phase stands in this command with these argument bytes still to come (log 6). -/
def Phase.awaitsRest (ph : Phase) (code : ConsoleCode) (args : List Byte) : Bool :=
  match ph with
  | .arguments c got => c == code && decide (got.length < args.length) && args.take got.length == got
  | _ => false

/-- A row of the table that is a console command (log 6): in the command phase the whole command arrives, in its own
arguments phase the bytes that are still to come, and it is taken; in any other phase its bytes are received as that
phase receives them. `owner` is the owner's work. -/
def State.console (s : State) (code : ConsoleCode) (args : List Byte) (owner : State → State × Answer) : State :=
  if s.port.phase = .command ∨ s.port.phase.awaitsRest code args = true then respond (owner s.dropWalk)
  else s.receiveBytes (code.toByte :: args)

/-! ### The edges of CS_N -/

/-- CS_N falls (R163): a transaction opens in the command phase; a line that is low already has no such edge (R168). -/
def State.takeCsFall (s : State) : State :=
  if s.port.csLow then s
  else s.modPort fun p => { p with csLow := true, phase := .command, miso := none }

/-- CS_N rises (R168, R172): the transaction closes from any phase, the walk ends and MISO is released. -/
def State.takeCsRise (s : State) : State :=
  if s.port.csLow then
    s.modPort fun p => { p with csLow := false, phase := .closed, miso := none, walk := none, firstLook := false }
  else s

end Sys2Proof.Machine
end

