-- ==== Sys2Proof/Machine/Clock.lean ====
section
/-! DEFINITION. The clock (log 2): on an empty queue, a frame that DLC begins at this very moment is put into the queue;
where there is none, one microsecond passes. The timers that run count down, the frames on the line are sent, and the rows
that have come due are put into the queue; the order of several is a free value (log 3). -/

namespace Sys2Proof.Machine

/-- A timer counts one microsecond. -/
def countDown (t : Option Nat) : Option Nat := t.map fun n => n - 1

/-- The timer runs out with the microsecond that passes. -/
def runsOut (t : Option Nat) : Bool := t == some 1

/-- The timers of a group count one microsecond (R30). -/
def Group.tick (g : Group) : Group :=
  { g with
    stepTimer := countDown g.stepTimer
    holdTimer := countDown g.holdTimer
    landingTimer := countDown g.landingTimer
    stopTimer := countDown g.stopTimer }

/-- A row that comes due under a test. -/
def due (c : Bool) (i : Instr) : List Instr := if c then [i] else []

/-- The expiries of a group's timers that come due with this microsecond. -/
def Group.due (g : Group) (k : GroupId) : List Instr :=
  Machine.due (runsOut g.stepTimer) (.stepTimerExpiry k) ++ Machine.due (runsOut g.holdTimer) (.holdTimerExpiry k) ++
    Machine.due (runsOut g.landingTimer) (.landingTimerExpiry k) ++ Machine.due (runsOut g.stopTimer) (.stopTimerExpiry k)

/-- The poll in flight counts one microsecond of its response timer (R149). -/
def PollInFlight.tick (p : PollInFlight) : PollInFlight :=
  match p.stage with
  | .awaiting left => { p with stage := .awaiting (left - 1) }
  | _ => p

/-- The line and the frame gaps count one microsecond: a HALT_ALL, or the byte in progress of a cut poll, that ends
leaves the line quiet for a frame gap (R144, R155). -/
def Link.tick (l : Link) : Link :=
  let l := { l with poll := l.poll.map PollInFlight.tick }
  match l.line with
  | .quiet => { l with gap := l.gap - 1, lineGap := l.lineGap - 1 }
  | .sendingPoll bytes left => { l with line := .sendingPoll bytes (left - 1) }
  | .sendingHalt left => if left ≤ 1 then l.endFrame else { l with line := .sendingHalt (left - 1) }
  | .cutPoll b left => if left ≤ 1 then l.endFrame else { l with line := .cutPoll b (left - 1) }
  | .discarding => l

/-- The moment at which a round that is awaited starts has come (R146, R159): at slow pace one idle interval after the
round start time. The frame gap is tested beside it. -/
def Link.roundDue (l : Link) (now : Nat) : Bool :=
  match l.round with
  | .between .fast => true
  | .between .slow => match l.roundStart with
    | some t => decide (t + l.idleInterval * 1000 ≤ now)
    | none => true
  | _ => false

/-- The poll in flight's event that comes due with this microsecond: the end of its frame, or its timeout (R149). -/
def Link.exchangeDue (l : Link) : List Instr :=
  match l.poll, l.line with
  | some p, .sendingPoll _ left =>
    Machine.due (p.stage == .sending && left == 1) .endOfPoll
  | some p, _ => Machine.due (p.stage == .awaiting 1) .responseTimerExpiry
  | none, _ => []

/-- The frame that DLC begins now that the line is quiet and its frame gap has passed: an owed HALT_ALL, the next poll of
a round, or the round that is awaited (R144, R146, R155). -/
def Link.frameDue (l : Link) (now : Nat) : List Instr :=
  if l.poll.isNone && l.line == .quiet then
    if l.haltOwed then due (l.lineGap == 0) .haltAll
    else
      match l.round with
      | .inRound => due (l.gap == 0 && l.nextSlot.isSome) .poll
      | .between _ => due (l.gap == 0 && l.roundDue now) .roundStart
      | .stopped => []
  else []

/-- The rows in an order that free values choose: each is put at a free place among those behind it (log 3). -/
def arrange (n : Nat) : List Instr → List Instr
  | [] => []
  | [i] => [i]
  | i :: j :: rest => (arrange (n + 1) (j :: rest)).insertIdx (Config.eventOrder n % (rest.length + 2)) i

/-- The rows that come due with this microsecond. -/
def State.dueRows (s : State) : List Instr :=
  (List.finRange 8).flatMap (fun k => (s.group k).due k) ++ due (runsOut s.safety.jogTimer) .jogHoldTimerExpiry ++
    s.link.exchangeDue ++ s.link.tick.frameDue (s.now + 1)

/-- The clocks count one microsecond, and the rows that come due are put into the queue. -/
def State.count (s : State) : State :=
  { s.mapGroups Group.tick with
    link := s.link.tick
    safety := { s.safety with jogTimer := countDown s.safety.jogTimer }
    now := s.now + 1
    freeCount := s.freeCount + s.dueRows.length
    pending := s.pending ++ arrange s.freeCount s.dueRows }

/-- What waits within this moment is taken: an assertion's deliveries (log 26) and a reply's events (log 27). -/
def State.endMoment (s : State) : State := s.deliverWaiting.deliverEvents

/-- The queue is empty: what waits is taken, and a frame that is due at this moment begins in it, such as the first poll of
a round that has just started (R144, R149); where none is, one microsecond passes. -/
def State.tick (s : State) : State :=
  let t := s.endMoment
  match t.link.frameDue t.now with
  | [] => t.count
  | i :: rest => { t with pending := t.pending ++ i :: rest }

end Sys2Proof.Machine
end

