-- ==== Sys2Proof/Machine/PortCommands.lean ====
section
/-! DEFINITION. The meanings of CPORT's rows: LOOK, SUMMARY, CLRATTN, the bytes of a transaction, the edges of CS_N. -/

namespace Sys2Proof.Machine

/-- The outcome of a command: the next state, with a slow wait ended where the fast condition now holds (R146). -/
def complete (s : State) : Host.Outcome State Fault Refusal := .next s.repace

/-- LOOK (R171). -/
def execLook (kind block index : Byte) (s : State) : Host.Outcome State Fault Refusal :=
  complete (s.console .look [kind, block, index] fun t => t.takeLook kind block index)

/-- SUMMARY (R175). -/
def execSummary (s : State) : Host.Outcome State Fault Refusal := complete (s.console .summary [] State.takeSummary)

/-- CLRATTN (R176). -/
def execClrattn (kind index : Byte) (s : State) : Host.Outcome State Fault Refusal :=
  complete (s.console .clrattn [kind, index] fun t => t.clearAttention kind index)

/-- CONTINUE_BYTE (R173): the byte 0x5A is received. -/
def execContinueByte (s : State) : Host.Outcome State Fault Refusal := complete (s.receiveByte continueByteValue)

/-- NULL_BYTE (R163): the byte 0x00 is received. -/
def execNullByte (s : State) : Host.Outcome State Fault Refusal := complete (s.receiveByte nullByteValue)

/-- UNKNOWN_COMMAND_BYTE (R166): a byte that is no command code is received. -/
def execUnknownCommandByte (b : Byte) (s : State) : Host.Outcome State Fault Refusal := complete (s.receiveByte b)

/-- ARGUMENT_BYTE (R164): a byte is received; in the command phase it is the command's own byte (log 7). -/
def execArgumentByte (b : Byte) (s : State) : Host.Outcome State Fault Refusal := complete (s.receiveByte b)

/-- RESPONSE_BYTE (R165): a filler byte is received and the next byte of the response is returned. -/
def execResponseByte (filler : Byte) (s : State) : Host.Outcome State Fault Refusal := complete (s.receiveByte filler)

/-- CS_N_FALLING_EDGE (R163). -/
def execCsFallingEdge (s : State) : Host.Outcome State Fault Refusal := complete s.takeCsFall

/-- CS_N_RISING_EDGE (R168, R172). -/
def execCsRisingEdge (s : State) : Host.Outcome State Fault Refusal := complete s.takeCsRise

end Sys2Proof.Machine
end

