-- ==== Sys2Proof/Machine/GroupCommands.lean ====
section
/-! DEFINITION. The meanings of the rows that name a group, or the jog by the index 8. -/

namespace Sys2Proof.Machine

/-- SETGROUP (R39). -/
def execSetgroup (group level gain landing mask stepPeriod settle : Byte) (holdMs stopMs landMs : BitVec 16)
    (s : State) : Host.Outcome State Fault Refusal :=
  complete (s.console .setgroup
    [group, level, gain, landing, mask, stepPeriod, settle, hiByte holdMs, loByte holdMs, hiByte stopMs, loByte stopMs,
      hiByte landMs, loByte landMs]
    fun t => t.setGroup group level gain landing mask stepPeriod settle holdMs stopMs landMs)

/-- QUEUE (R36). -/
def execQueue (group : Byte) (target cruise accel : BitVec 16) (source after : Byte) (s : State) :
    Host.Outcome State Fault Refusal :=
  complete (s.console .queue
    [group, hiByte target, loByte target, hiByte cruise, loByte cruise, hiByte accel, loByte accel, source, after]
    fun t => t.queueCue group target cruise accel source after)

/-- FLUSH (R37). -/
def execFlush (group : Byte) (s : State) : Host.Outcome State Fault Refusal :=
  complete (s.console .flush [group] fun t => t.flush group)

/-- ARM (R40 to R42). -/
def execArm (group : Byte) (s : State) : Host.Outcome State Fault Refusal :=
  complete (s.console .arm [group] fun t => t.arm group)

/-- GO (R45). -/
def execGo (group : Byte) (s : State) : Host.Outcome State Fault Refusal :=
  complete (s.console .go [group] fun t => t.go group)

/-- HOLD (R126). -/
def execHold (group : Byte) (s : State) : Host.Outcome State Fault Refusal :=
  complete (s.console .hold [group] fun t => t.takeHold group)

/-- HOLD_8 (R132). -/
def execHold8 (s : State) : Host.Outcome State Fault Refusal := complete (s.console .hold [8] State.holdJog)

/-- HALT (R47). -/
def execHalt (group : Byte) (s : State) : Host.Outcome State Fault Refusal :=
  complete (s.console .halt [group] fun t => t.takeHalt group)

/-- HALT_8 (R132). -/
def execHalt8 (s : State) : Host.Outcome State Fault Refusal := complete (s.console .halt [8] State.haltJog)

/-- STAGESPD (R48). -/
def execStagespd (group : Byte) (cruise : BitVec 16) (s : State) : Host.Outcome State Fault Refusal :=
  complete (s.console .stagespd [group, hiByte cruise, loByte cruise] fun t => t.stageSpeed group cruise)

/-- STAGETGT (R49). -/
def execStagetgt (group : Byte) (target : BitVec 16) (s : State) : Host.Outcome State Fault Refusal :=
  complete (s.console .stagetgt [group, hiByte target, loByte target] fun t => t.stageTarget group target)

/-- ACKFAULT (R118). -/
def execAckfault (group : Byte) (s : State) : Host.Outcome State Fault Refusal :=
  complete (s.console .ackfault [group] fun t => t.ackFault group)

end Sys2Proof.Machine
end

