-- ==== Sys2Proof/Machine/HoistCommands.lean ====
section
/-! DEFINITION. The meanings of the rows that name a slot: ADMIT, AMEND, RETIRE, ASSIGN, CLRFLAGS and JOG. -/

namespace Sys2Proof.Machine

/-- ADMIT (R8, R9). -/
def execAdmit (slot address : Byte) (lower upper trim : BitVec 16) (s : State) : Host.Outcome State Fault Refusal :=
  complete (s.console .admitHoist
    [slot, address, hiByte lower, loByte lower, hiByte upper, loByte upper, hiByte trim, loByte trim]
    fun t => t.admitSlot slot address lower upper trim)

/-- AMEND (R21). -/
def execAmend (slot : Byte) (lower upper trim : BitVec 16) (overload underload shift : Byte) (jogDemand : BitVec 16)
    (s : State) : Host.Outcome State Fault Refusal :=
  complete (s.console .amend
    [slot, hiByte lower, loByte lower, hiByte upper, loByte upper, hiByte trim, loByte trim, overload, underload, shift,
      hiByte jogDemand, loByte jogDemand]
    fun t => t.amend slot lower upper trim overload underload shift jogDemand)

/-- RETIRE (R22). -/
def execRetire (slot : Byte) (s : State) : Host.Outcome State Fault Refusal :=
  complete (s.console .retire [slot] fun t => t.retire slot)

/-- ASSIGN (R32, R33). -/
def execAssign (slot group : Byte) (s : State) : Host.Outcome State Fault Refusal :=
  complete (s.console .assign [slot, group] fun t => t.assign slot group)

/-- CLRFLAGS (R119). -/
def execClrflags (slot : Byte) (s : State) : Host.Outcome State Fault Refusal :=
  complete (s.console .clrflags [slot] fun t => t.clearFlags slot)

/-- JOG (R129, R130). -/
def execJog (slot direction : Byte) (distance : BitVec 16) (s : State) : Host.Outcome State Fault Refusal :=
  complete (s.console .jog [slot, direction, hiByte distance, loByte distance] fun t => t.takeJog slot direction distance)

end Sys2Proof.Machine
end

