-- ==== Sys2Proof/Machine/LineEvents.lean ====
section
/-! DEFINITION. The meanings of the rows of the lines, the timers of SLB and GENG, PERMIT, RESTART and PORST_N. -/

namespace Sys2Proof.Machine

/-- PERMIT (R136). -/
def execPermit (s : State) : Host.Outcome State Fault Refusal := complete (s.console .permit [] State.takePermit)

/-- RESTART (R120, R121). -/
def execRestart (s : State) : Host.Outcome State Fault Refusal := complete (s.console .restart [] State.takeRestart)

/-- PORST_N (R25, R51, R138, R160, R178): every block at its reset values, the line levels those at the release. The
model's own queue, clock and count stay (log 25). -/
def execPorst (estopLow cue0High cue1High csLow : Bool) (s : State) : Host.Outcome State Fault Refusal :=
  .next { State.afterReset estopLow cue0High cue1High csLow with
    now := s.now, freeCount := s.freeCount, pending := s.pending }

/-- ESTOP_N_ASSERTION (R134). -/
def execEstopAssertion (s : State) : Host.Outcome State Fault Refusal := complete s.takeEstopAssertion

/-- ESTOP_N_RELEASE (R135). -/
def execEstopRelease (s : State) : Host.Outcome State Fault Refusal := complete s.takeEstopRelease

/-- CUE_RISING_EDGE (R125). -/
def execCueRisingEdge (line : CueLine) (s : State) : Host.Outcome State Fault Refusal := complete (s.takeCueRise line)

/-- CUE_FALLING_EDGE (R128). -/
def execCueFallingEdge (line : CueLine) (s : State) : Host.Outcome State Fault Refusal := complete (s.takeCueFall line)

/-- STEP_TIMER_EXPIRY (R57). -/
def execStepTimerExpiry (group : GroupId) (s : State) : Host.Outcome State Fault Refusal :=
  match s.takeStepExpiry group with
  | some t => complete t
  | none => .fault .stepWithoutProfile

/-- HOLD_TIMER_EXPIRY (R127). -/
def execHoldTimerExpiry (group : GroupId) (s : State) : Host.Outcome State Fault Refusal :=
  complete (s.takeHoldExpiry group)

/-- LANDING_TIMER_EXPIRY (R85). -/
def execLandingTimerExpiry (group : GroupId) (s : State) : Host.Outcome State Fault Refusal :=
  complete (s.takeLandingExpiry group)

/-- STOP_TIMER_EXPIRY (R114). -/
def execStopTimerExpiry (group : GroupId) (s : State) : Host.Outcome State Fault Refusal :=
  complete (s.takeStopExpiry group)

/-- JOG_HOLD_TIMER_EXPIRY (R132). -/
def execJogHoldTimerExpiry (s : State) : Host.Outcome State Fault Refusal := complete s.takeJogExpiry

end Sys2Proof.Machine
end

