-- ==== Sys2Proof/Machine/LinkEvents.lean ====
section
/-! DEFINITION. The meanings of the rows of the drive link: LINKCFG, rounds, polls, replies and the response timer. -/

namespace Sys2Proof.Machine

/-- LINKCFG (R157 to R159). -/
def execLinkcfg (timeout : BitVec 16) (threshold : Byte) (idle : BitVec 16) (s : State) :
    Host.Outcome State Fault Refusal :=
  complete (s.console .linkcfg [hiByte timeout, loByte timeout, threshold, hiByte idle, loByte idle]
    fun t => t.configureLink timeout threshold idle)

/-- RESPONSE_TIMER_EXPIRY (R149). -/
def execResponseTimerExpiry (s : State) : Host.Outcome State Fault Refusal := complete s.takeResponseExpiry

/-- ROUND_START (R144). -/
def execRoundStart (s : State) : Host.Outcome State Fault Refusal := complete s.takeRoundStart

/-- POLL (R148). -/
def execPoll (s : State) : Host.Outcome State Fault Refusal := complete s.takePoll

/-- END_OF_POLL (R149). -/
def execEndOfPoll (s : State) : Host.Outcome State Fault Refusal := complete s.takeEndOfPoll

/-- HALT_ALL (R155). -/
def execHaltAll (s : State) : Host.Outcome State Fault Refusal := complete s.takeHaltAll

/-- STATUS_REPLY (R13, R151, R184): taken at the end of its last byte. -/
def execStatusReply (address : BitVec 6) (flags : Byte) (height : BitVec 24) (load : BitVec 16) (echo : Byte)
    (crc : BitVec 16) (s : State) : Host.Outcome State Fault Refusal :=
  complete (s.takeFrame (statusFrame address flags height load echo crc) Config.frameGap)

/-- IDENT_REPLY (R10, R151, R184): taken at the end of its last byte. -/
def execIdentReply (address : BitVec 6) (flags : Byte) (ratedLoad ratedSpeed crc : BitVec 16) (s : State) :
    Host.Outcome State Fault Refusal :=
  complete (s.takeFrame (identFrame address flags ratedLoad ratedSpeed crc) Config.frameGap)

/-- REPLY_FIRST_START_BIT (R149). -/
def execReplyFirstStartBit (elapsed : Nat) (s : State) : Host.Outcome State Fault Refusal :=
  complete (s.takeFirstStartBit elapsed)

/-- REPLY_BYTE_GAP_EXPIRY (R149): the frame ends early and is taken with the bytes received so far. The
last of them ended more than 40 µs ago, longer than a frame gap. -/
def execReplyByteGapExpiry (bytes : List Byte) (s : State) : Host.Outcome State Fault Refusal :=
  complete (s.takeFrame bytes 0)

end Sys2Proof.Machine
end

