-- ==== Sys2Proof/Machine/Dispatch.lean ====
section
/-! DEFINITION. exec: one arm per row of spec/opcode_table.json, each one direct call of its meaning. -/

namespace Sys2Proof.Machine

def exec (i : Instr) (s : State) : Host.Outcome State Fault Refusal :=
  match i with
  | .look kind block index => Sys2Proof.Machine.execLook kind block index s
  | .continueByte => Sys2Proof.Machine.execContinueByte s
  | .nullByte => Sys2Proof.Machine.execNullByte s
  | .unknownCommandByte b => Sys2Proof.Machine.execUnknownCommandByte b s
  | .summary => Sys2Proof.Machine.execSummary s
  | .clrattn kind index => Sys2Proof.Machine.execClrattn kind index s
  | .admitHoist slot address lower upper trim => Sys2Proof.Machine.execAdmit slot address lower upper trim s
  | .amend slot lower upper trim overload underload shift jogDemand => Sys2Proof.Machine.execAmend slot lower upper trim overload underload shift jogDemand s
  | .retire slot => Sys2Proof.Machine.execRetire slot s
  | .assign slot group => Sys2Proof.Machine.execAssign slot group s
  | .clrflags slot => Sys2Proof.Machine.execClrflags slot s
  | .setgroup group level gain landing mask stepPeriod settle holdMs stopMs landMs => Sys2Proof.Machine.execSetgroup group level gain landing mask stepPeriod settle holdMs stopMs landMs s
  | .queue group target cruise accel source after => Sys2Proof.Machine.execQueue group target cruise accel source after s
  | .flush group => Sys2Proof.Machine.execFlush group s
  | .arm group => Sys2Proof.Machine.execArm group s
  | .go group => Sys2Proof.Machine.execGo group s
  | .hold group => Sys2Proof.Machine.execHold group s
  | .hold8 => Sys2Proof.Machine.execHold8 s
  | .halt group => Sys2Proof.Machine.execHalt group s
  | .halt8 => Sys2Proof.Machine.execHalt8 s
  | .stagespd group cruise => Sys2Proof.Machine.execStagespd group cruise s
  | .stagetgt group target => Sys2Proof.Machine.execStagetgt group target s
  | .ackfault group => Sys2Proof.Machine.execAckfault group s
  | .jog slot direction distance => Sys2Proof.Machine.execJog slot direction distance s
  | .linkcfg timeout threshold idle => Sys2Proof.Machine.execLinkcfg timeout threshold idle s
  | .permit => Sys2Proof.Machine.execPermit s
  | .restart => Sys2Proof.Machine.execRestart s
  | .csFallingEdge => Sys2Proof.Machine.execCsFallingEdge s
  | .csRisingEdge => Sys2Proof.Machine.execCsRisingEdge s
  | .porst estopLow cue0High cue1High csLow => Sys2Proof.Machine.execPorst estopLow cue0High cue1High csLow s
  | .estopAssertion => Sys2Proof.Machine.execEstopAssertion s
  | .estopRelease => Sys2Proof.Machine.execEstopRelease s
  | .cueRisingEdge line => Sys2Proof.Machine.execCueRisingEdge line s
  | .cueFallingEdge line => Sys2Proof.Machine.execCueFallingEdge line s
  | .stepTimerExpiry group => Sys2Proof.Machine.execStepTimerExpiry group s
  | .holdTimerExpiry group => Sys2Proof.Machine.execHoldTimerExpiry group s
  | .landingTimerExpiry group => Sys2Proof.Machine.execLandingTimerExpiry group s
  | .stopTimerExpiry group => Sys2Proof.Machine.execStopTimerExpiry group s
  | .jogHoldTimerExpiry => Sys2Proof.Machine.execJogHoldTimerExpiry s
  | .responseTimerExpiry => Sys2Proof.Machine.execResponseTimerExpiry s
  | .roundStart => Sys2Proof.Machine.execRoundStart s
  | .poll => Sys2Proof.Machine.execPoll s
  | .endOfPoll => Sys2Proof.Machine.execEndOfPoll s
  | .haltAll => Sys2Proof.Machine.execHaltAll s
  | .statusReply address flags height load echo crc => Sys2Proof.Machine.execStatusReply address flags height load echo crc s
  | .identReply address flags ratedLoad ratedSpeed crc => Sys2Proof.Machine.execIdentReply address flags ratedLoad ratedSpeed crc s
  | .replyFirstStartBit elapsed => Sys2Proof.Machine.execReplyFirstStartBit elapsed s
  | .replyByteGapExpiry bytes => Sys2Proof.Machine.execReplyByteGapExpiry bytes s
  | .argumentByte b => Sys2Proof.Machine.execArgumentByte b s
  | .responseByte filler => Sys2Proof.Machine.execResponseByte filler s

end Sys2Proof.Machine
end

