-- ==== Sys2Proof/Safety.lean ====
section
/-! DEFINITION. What a state of the part is like: the laws that the rules state of the records, the groups, the link, the
lines and the port, gathered in `State.Inv`; what a safe step is; and the words the statements use. -/

namespace Sys2Proof.Machine

/-! ### One hoist record -/

/-- The configuration fields are in their ranges (R3). -/
abbrev Hoist.ConfigOk (h : Hoist) : Prop :=
  1 ≤ h.address ∧ h.address ≤ 62 ∧ h.lower < h.upper ∧ h.upper ≤ 50000 ∧ -2000 ≤ h.trim ∧ h.trim ≤ 2000 ∧
    100 ≤ h.overloadPct ∧ h.overloadPct ≤ 125 ∧ 10 ≤ h.underloadPct ∧ h.underloadPct ≤ 90 ∧ 5 ≤ h.shiftPct ∧
    h.shiftPct ≤ 50 ∧ 50 ≤ h.jogDemand ∧ h.jogDemand ≤ 500

/-- A record holds both rated values, in range, unless it is HST_ADMITTING, when it holds neither (R3). -/
abbrev Hoist.RatedOk (h : Hoist) : Prop :=
  (h.ratedLoad = none ↔ h.state = .admitting) ∧ (h.ratedSpeed = none ↔ h.state = .admitting) ∧
    (∀ w ∈ h.ratedLoad, 125 ≤ w ∧ w ≤ 2000) ∧ (∀ v ∈ h.ratedSpeed, 10 ≤ v ∧ v ≤ 300)

/-- The reported fields are in range (R4), and a moving or jogging hoist has reported a height (R72, R130). -/
abbrev Hoist.ReportOk (h : Hoist) : Prop :=
  (∀ p ∈ h.height, p ≤ 500000) ∧ (∀ w ∈ h.load, w ≤ 8191) ∧
    (h.state = .moving ∨ h.state = .jogging → h.height.isSome)

/-- The motion fields are in range and present only where R5 has them; the direction is NONE exactly with demand 0 (R2). -/
abbrev Hoist.MotionOk (h : Hoist) : Prop :=
  (h.demand = 0 ∨ 20 ≤ h.demand ∧ h.demand ≤ 1000) ∧ (0 < h.demand → h.state = .moving ∨ h.state = .jogging) ∧
    (h.direction = .none ↔ h.demand = 0) ∧ (h.deviation.isSome → h.state = .moving) ∧
    (h.landed = true → h.state = .moving) ∧ (h.jogStart.isSome ↔ h.state = .jogging) ∧
    (h.jogDistance.isSome ↔ h.state = .jogging) ∧ (∀ p ∈ h.jogStart, p ≤ 500000) ∧
    (∀ d ∈ h.jogDistance, 1 ≤ d ∧ d ≤ 500) ∧ (∀ b ∈ h.baseline, 20 ≤ b ∧ b ≤ 8190)

/-- A group cause (R102): it never stands in a hoist's sets. -/
def Cond.isGroupCause (c : Cond) : Bool := c == .estop || c == .landTime || c == .stopTime

/-- A set of hoist conditions in its canonical form. -/
abbrev CondSet.HoistSet (a : CondSet) : Prop := a.wf ∧ ∀ c ∈ a, c.isGroupCause = false

/-- The condition sets hold hoist conditions; COND_LOST stands exactly in a lost record and COND_LINKERR exactly while
misses are counted; an admitting record holds at most COND_LINKERR (R103). -/
abbrev Hoist.ConditionsOk (h : Hoist) : Prop :=
  h.current.HoistSet ∧ h.accrued.HoistSet ∧ (Cond.lost ∈ h.current ↔ h.state = .lost) ∧
    (Cond.linkErr ∈ h.current ↔ 0 < h.missCount) ∧ (h.state = .admitting → ∀ c ∈ h.current, c = .linkErr)

/-- The link fields against the loss threshold (R6, R154), and the records that hold no group (R9, R23). -/
abbrev Hoist.MissOk (h : Hoist) (threshold : Nat) : Prop :=
  h.missCount ≤ threshold ∧ (h.state = .lost → h.missCount = threshold) ∧ (0 < h.missCount → h.lastMiss.isSome) ∧
    (h.state = .admitting ∨ h.state = .retiring → h.group = none)

/-- Everything of one record. -/
abbrev Hoist.Ok (h : Hoist) (threshold : Nat) : Prop :=
  h.ConfigOk ∧ h.RatedOk ∧ h.ReportOk ∧ h.MotionOk ∧ h.ConditionsOk ∧ h.MissOk threshold

/-- Every record of the table. -/
abbrev State.RecordsOk (s : State) : Prop := ∀ i, ∀ h ∈ s.record i, h.Ok s.link.lossThreshold

/-! ### The maps and lists -/

/-- The node address map holds exactly one entry for each record, from its address to its slot (R7). -/
abbrev State.NodeMapOk (s : State) : Prop :=
  s.nodeMap.Pairwise (fun a b => a.1 < b.1) ∧ (∀ e ∈ s.nodeMap, (s.record e.2).map (·.address) = some e.1) ∧
    ∀ i, ∀ h ∈ s.record i, (h.address, i) ∈ s.nodeMap

/-- The slots that hold a record, ascending. -/
def State.listed (s : State) : List Slot := (List.finRange 32).filter fun i => (s.record i).isSome

/-- The poll list holds every non-EMPTY slot exactly once and no EMPTY slot, ascending (R143). -/
abbrev State.PollListOk (s : State) : Prop := s.link.pollList = s.listed

/-- The slots whose record names a group, ascending. -/
def State.naming (s : State) (k : GroupId) : List Slot :=
  (List.finRange 32).filter fun i => (s.record i).bind (·.group) == some k

/-- The member set of a group is the set of slots whose record names it, and it is empty exactly when the group is
GST_EMPTY (R31). -/
abbrev State.MembersOk (s : State) : Prop :=
  ∀ k, (s.group k).members = s.naming k ∧ ((s.group k).state = .empty ↔ (s.group k).members = [])

/-! ### One group record -/

/-- The settings are in their ranges (R38). -/
abbrev Settings.Ok (t : Settings) : Prop :=
  1 ≤ t.levelTol ∧ t.levelTol ≤ 200 ∧ t.gain ≤ 255 ∧ 1 ≤ t.landingTol ∧ t.landingTol ≤ 20 ∧ 10 ≤ t.stepPeriod ∧
    t.stepPeriod ≤ 100 ∧ t.stepPeriod % 10 = 0 ∧ t.settleRounds ≤ 255 ∧ 100 ≤ t.holdTimeout ∧ t.holdTimeout ≤ 1000 ∧
    500 ≤ t.stopTimeout ∧ t.stopTimeout ≤ 5000 ∧ 1000 ≤ t.landingTimeout ∧ t.landingTimeout ≤ 30000

/-- A cue of group `k` is in its ranges, and a chained one does not name its own group (R35). -/
abbrev Cue.Ok (c : Cue) (k : GroupId) : Prop :=
  c.target ≤ 50000 ∧ 1 ≤ c.cruise ∧ c.cruise ≤ 300 ∧ 10 ≤ c.accel ∧ c.accel ≤ 1000 ∧ c.source ≠ .after k

/-- The cue queue holds at most 4 cues, and at least one while the group is armed or moving (R35). -/
abbrev Group.QueueOk (g : Group) (k : GroupId) : Prop :=
  g.queue.length ≤ 4 ∧ (∀ c ∈ g.queue, c.Ok k) ∧ (g.state = .armed ∨ g.state = .moving → g.queue ≠ [])

/-- Each timer runs exactly where R30 shows it running. -/
abbrev Group.TimersOk (g : Group) : Prop :=
  (g.stepTimer.isSome ↔ g.state = .moving ∧ g.arrived = false) ∧
    (g.holdTimer.isSome ↔ g.state = .moving ∧ g.holdSource = some .console) ∧
    (g.landingTimer.isSome ↔ g.state = .moving ∧ g.arrived = true) ∧ (g.stopTimer.isSome ↔ g.state = .stopping)

/-- The move fields (R28, R53): the direction and effective cruise are there from ARM on, the references from the start
on, the staging only while the group moves, the speed and residue only while it moves. -/
abbrev Group.MoveOk (g : Group) : Prop :=
  (g.state = .armed ∨ g.state = .moving → g.direction.isSome ∧ g.cruise.isSome) ∧
    (g.state = .moving → g.startRef.isSome ∧ g.reference.isSome ∧ g.holdSource.isSome) ∧
    (g.state = .armed → g.startRef = none ∧ g.reference = none ∧ g.arrived = false ∧ g.holdSource = none) ∧
    (g.state ≠ .moving → g.refSpeed = 0 ∧ g.residue = 0 ∧ g.stagedSpeed = none ∧ g.stagedTarget = none) ∧
    g.residue < 1000 ∧ (∀ v ∈ g.cruise, g.refSpeed ≤ v ∧ v ≤ 300000) ∧ (g.arrived = true → g.refSpeed = 0) ∧
    (∀ v ∈ g.stagedSpeed, v ≤ 300) ∧ (∀ t ∈ g.stagedTarget, t ≤ 50000) ∧
    g.settleRemaining ≤ 255 ∧ (g.state = .settling → 1 ≤ g.settleRemaining)

/-- The reference of a moving group lies between its start reference and its head cue's target (R61), on the target once
it has arrived and short of it before (R58). -/
abbrev Group.ReferenceOk (g : Group) : Prop :=
  g.state = .moving → ∀ dir ∈ g.direction, ∀ r ∈ g.reference, ∀ st ∈ g.startRef, ∀ c ∈ g.head,
    if g.arrived then r = (c.target : Int) * 1000
    else strictlyAhead dir ((c.target : Int) * 1000) r = true ∧ atOrBeyond dir r st = true

/-- The fault fields: a first-fault record stands exactly in GST_FAULTED and in a stop with a fault cause (R110), a pending
fault only in GST_IDLE (R111), and a stop cause wherever the group stops or is faulted (R29, R117). -/
abbrev Group.FaultOk (g : Group) : Prop :=
  (g.firstFault.isSome ↔ g.state = .faulted ∨ g.state = .stopping ∧ g.stopCause.any StopCause.isFault = true) ∧
    (g.pendingFault.isSome → g.state = .idle) ∧ (g.state = .stopping → g.stopCause.isSome) ∧
    (g.state = .faulted → g.stopCause.any StopCause.isFault = true) ∧
    (g.state = .empty ∨ g.state = .armed ∨ g.state = .moving ∨ g.state = .settling → g.stopCause = none) ∧
    (g.state = .idle → g.stopCause.any StopCause.isFault = false)

/-- Everything of one group record that does not read another record. -/
abbrev Group.Ok (g : Group) (k : GroupId) : Prop :=
  g.settings.Ok ∧ g.QueueOk k ∧ g.TimersOk ∧ g.MoveOk ∧ g.ReferenceOk ∧ g.FaultOk

/-- Every group of the table. -/
abbrev State.GroupsOk (s : State) : Prop := ∀ k, (s.group k).Ok k

/-! ### Groups and their members -/

/-- A test of every member's record. -/
abbrev State.EveryMember (s : State) (k : GroupId) (p : Hoist → Prop) : Prop :=
  ∀ i ∈ (s.group k).members, ∀ h ∈ s.record i, p h

/-- A test that some member's record passes. -/
abbrev State.SomeMember (s : State) (k : GroupId) (p : Hoist → Prop) : Prop :=
  ∃ i ∈ (s.group k).members, ∃ h ∈ s.record i, p h

/-- A landed event of the group is still to be taken (R81, log 27). -/
abbrev State.LandedWaits (s : State) (k : GroupId) : Prop :=
  ∃ e ∈ s.eventsWaiting, e.group = k ∧ e.landed = true

/-- The states of the members in each state of their group (R14 to R18, R82, R113, R117): an armed or settling group's
members stand ready, a moving group's members all move and are not all landed unless the last one's landed event waits, a
stopping group waits for a member. -/
abbrev State.MemberStatesOk (s : State) (k : GroupId) : Prop :=
  match (s.group k).state with
  | .empty => True
  | .armed => s.EveryMember k fun h => h.state = .ready ∧ h.height.isSome = true
  | .settling => s.EveryMember k fun h => h.state = .ready
  | .moving =>
    (s.EveryMember k fun h => h.state = .moving) ∧
      if (s.group k).arrived then (s.SomeMember k fun h => h.landed = false) ∨ s.LandedWaits k
      else s.EveryMember k fun h => h.landed = false
  | .stopping =>
    (s.EveryMember k fun h => h.state = .ready ∨ h.state = .stopping ∨ h.state = .lost) ∧
      s.SomeMember k fun h => h.state = .stopping
  | .idle | .faulted => s.EveryMember k fun h => h.state ≠ .moving

/-- The states of all members, and no moving hoist outside a group. -/
abbrev State.MotionGroupsOk (s : State) : Prop :=
  (∀ k, s.MemberStatesOk k) ∧ ∀ i, ∀ h ∈ s.record i, h.state = .moving → h.group.isSome

/-! ### Lines, jog and power -/

/-- The power (R5, R123): never while ESTOP_N is asserted, and always where a demand is above 0 or a hoist jogs, or where a
group is armed or moving, unless it has yet to take the assertion (R78, log 26). -/
abbrev State.PowerOk (s : State) : Prop :=
  (s.safety.estopAsserted = true → s.safety.permit = false) ∧
    (s.safety.permit = false →
      (∀ i, ∀ h ∈ s.record i, h.demand = 0 ∧ h.state ≠ .jogging) ∧
        (s.safety.estopWaiting = false → ∀ k, (s.group k).state ≠ .armed ∧ (s.group k).state ≠ .moving))

/-- An assertion waits for its deliveries only while ESTOP_N is asserted and a reply is arriving (log 26), and a reply's
events wait only in a round with no poll open (log 27). -/
abbrev State.WaitingOk (s : State) : Prop :=
  (s.safety.estopWaiting = true → s.safety.estopAsserted = true ∧ s.replyArriving = true) ∧
    (s.eventsWaiting.isSome → s.link.round = .inRound ∧ s.link.poll = none)

/-- The jog slot is the slot of the hoist that jogs, so at most one does; the jog hold timer runs with it (R123, R130). -/
abbrev State.JogOk (s : State) : Prop :=
  (∀ i, s.hoistState i = some .jogging ↔ s.safety.jogSlot = some i) ∧
    (s.safety.jogTimer.isSome ↔ s.safety.jogSlot.isSome)

/-! ### The link -/

/-- The link settings are in their ranges (R142). -/
abbrev Link.SettingsOk (l : Link) : Prop :=
  50 ≤ l.responseTimeout ∧ l.responseTimeout ≤ 1000 ∧ l.responseTimeout % 10 = 0 ∧ 1 ≤ l.lossThreshold ∧
    l.lossThreshold ≤ 7 ∧ 50 ≤ l.idleInterval ∧ l.idleInterval ≤ 500 ∧ l.idleInterval % 10 = 0

/-- DLC is sending a poll. -/
def LineActivity.sendsPoll : LineActivity → Bool
  | .sendingPoll _ _ => true
  | _ => false

/-- What the line does follows the poll in flight (R148, R149). -/
abbrev Link.LineOk (l : Link) : Prop :=
  match l.poll with
  | none => l.line.sendsPoll = false
  | some p =>
    l.round = .inRound ∧ l.haltOwed = false ∧
      match p.stage with
      | .sending => l.line.sendsPoll = true
      | .awaiting left => l.line = .quiet ∧ left ≤ p.timeout
      | .receiving _ => l.line = .quiet

/-- The round state against the poll list (R144 to R147): STOPPED and the awaited round know no open poll, STOPPED has
nothing to poll and sends nothing, an awaited round has something to poll and is not awaited at slow pace while the fast
condition holds, and a round without an open poll has a slot left to poll, unless its completion waits behind a reply's
events (log 27). -/
abbrev State.RoundOk (s : State) : Prop :=
  match s.link.round with
  | .stopped => s.link.pollList = [] ∧ s.link.poll = none ∧ s.link.haltOwed = false
  | .between pace =>
    s.link.pollList ≠ [] ∧ s.link.poll = none ∧ s.link.roundStart.isSome ∧ (pace = .slow → s.fastCondition = false)
  | .inRound => s.link.roundStart.isSome ∧ (s.link.poll = none → s.eventsWaiting = none → s.link.nextSlot ≠ none)

/-- The poll in flight matches the record it was sent for (R142, R148, R150), unless it is orphaned. -/
abbrev State.PollOk (s : State) : Prop :=
  ∀ p ∈ s.link.poll, p.orphaned = false → (s.record p.slot).isSome ∧
    ∀ h ∈ s.record p.slot, h.seqBit = p.seqBit ∧ h.pollFrame = p.frame

/-- Everything of the link. -/
abbrev State.LinkOk (s : State) : Prop := s.link.SettingsOk ∧ s.link.LineOk ∧ s.RoundOk ∧ s.PollOk

/-! ### The port -/

/-- The port (R163 to R173): a transaction is open only while CS_N is low, an unfinished command still wants an argument,
and the cursor and the walk stand within their kind. -/
abbrev Port.Ok (p : Port) : Prop :=
  (p.csLow = false → p.phase = .closed) ∧ (p.phase = .closed → p.miso = none ∧ p.walk = none ∧ p.firstLook = false) ∧
    (match p.phase with
      | .arguments code got => got.length < code.argCount
      | _ => True) ∧
    p.cursorStart < p.cursorBlock.kind.count ∧ ∀ w ∈ p.walk, w.index < w.block.kind.count

/-! ### The whole state -/

/-- What every state that a run reaches is like. -/
structure State.Inv (s : State) : Prop where
  records : s.RecordsOk
  nodeMap : s.NodeMapOk
  pollList : s.PollListOk
  members : s.MembersOk
  groups : s.GroupsOk
  motion : s.MotionGroupsOk
  power : s.PowerOk
  waiting : s.WaitingOk
  jog : s.JogOk
  link : s.LinkOk
  port : s.port.Ok

/-- A step from the state gives a next state: the part does not stop. -/
def State.Runs (s : State) : Prop := ∃ t, step s = .next t

/-- The port with an answer in its response buffer (R165): the turnaround byte, the status, the data; the walk position is
absent, as after every command but LOOK and continue (R171). -/
def Port.answered (p : Port) (st : Status) (data : List Byte) : Port :=
  { p with phase := .response turnaroundByte (st.code :: data) false, miso := some turnaroundByte, walk := none }

/-- The state with a command's answer in the port, and a slow wait ended where the command made rounds fast (R146). -/
def State.answering (s : State) (st : Status) (data : List Byte) : State :=
  State.repace { s with port := s.port.answered st data }

/-! ### Words of the statements -/

/-- Replaces the record of a group. -/
def State.withGroup (s : State) (k : GroupId) (g : Group) : State := { s with groups := s.groups.set k g }

/-- Replaces the record in a slot. -/
def State.withRecord (s : State) (i : Slot) (h : Hoist) : State := s.setSlot i { s.slot i with record := some h }

/-- The kind code of LOOK and CLRATTN (R170). -/
def LookKind.code : LookKind → Byte
  | .hoist => 0
  | .group => 1
  | .device => 2

/-- The block code of LOOK within its kind (R170). -/
def LookBlock.code : LookBlock → Byte
  | .hoistStatus | .groupState | .deviceLines => 0
  | .hoistConfig | .groupConfig => 1
  | .hoistTrack | .groupQueue => 2

/-- LOOK's index byte names record `n` of a block's kind: itself, or 0xFF for the cursor's start, or any byte for the one
device record (R171). -/
def Port.indexNames (p : Port) (b : LookBlock) (index : Byte) (n : Nat) : Prop :=
  n < b.kind.count ∧ (index.toNat = n ∨ index = 0xFF ∧ p.cursorStart = n ∨ b.kind = .device)

/-- A value put into its range: below it the lowest, above it the highest. -/
def intoRange (low high v : Nat) : Nat := max low (min high v)

/-- A group that a slot leaves (R33 step 1, R34): the last member's leaving makes it GST_EMPTY, with its pending fault,
stop cause and first-fault record absent and its timers stopped. -/
def Group.without (g : Group) (i : Slot) : Group :=
  let rest := g.members.filter fun j => decide (j ≠ i)
  if rest = [] then
    { g with
      members := []
      state := .empty
      pendingFault := none
      stopCause := none
      firstFault := none
      stepTimer := none
      holdTimer := none
      landingTimer := none
      stopTimer := none }
  else { g with members := rest }

/-- The state in which a slot has left the member set of its record's group, if it has one. -/
def State.withoutMember (s : State) (i : Slot) (h : Hoist) : State :=
  match h.group with
  | none => s
  | some k => s.withGroup k ((s.group k).without i)

/-- The smallest rated speed among the members of a group is `m`. -/
def State.SlowestMember (s : State) (k : GroupId) (m : Nat) : Prop :=
  (∀ i ∈ (s.group k).members, ∀ h ∈ s.record i, ∀ v ∈ h.ratedSpeed, m ≤ v) ∧
    ∃ i ∈ (s.group k).members, ∃ h ∈ s.record i, h.ratedSpeed = some m

/-- Every member of a group has a record that passes a test. -/
def State.MembersAll (s : State) (k : GroupId) (p : Hoist → Prop) : Prop :=
  ∀ i ∈ (s.group k).members, ∃ h, s.record i = some h ∧ p h

/-- The groups of `p` and their members are as `act` leaves them for each of these groups alone, and everything else is as
before. -/
def State.ActedOn (s t : State) (p : GroupId → Prop) (act : GroupId → State) : Prop :=
  t = { s with slots := t.slots, groups := t.groups } ∧
    (∀ k, (p k → t.group k = (act k).group k) ∧ (¬ p k → t.group k = s.group k)) ∧
    ∀ i, (∀ k, p k → i ∈ (s.group k).members → t.slot i = (act k).slot i) ∧
      ((∀ k, p k → i ∉ (s.group k).members) → t.slot i = s.slot i)

/-- The state in which a jog of the record `h` in slot `i` has ended (R15, R133). -/
def State.jogEnded (s : State) (i : Slot) (h : Hoist) (cause : JogEndCause) : State :=
  { s with
    slots := s.slots.set i { s.slot i with
      attention := true
      record := some { h with
        state := .stopping, demand := 0, direction := .none, jogStart := none, jogDistance := none } }
    safety := { s.safety with jogSlot := none, jogTimer := none, lastJogEnd := some ⟨i, cause⟩ } }

/-- The state in which a round has completed (R145): the settling groups have counted it, and the next round is awaited at
the pace of this moment, or none is with an empty poll list. -/
def State.roundCompleted (s : State) : State :=
  { s.settleRounds with link := { s.link with
    round :=
      if s.link.pollList = [] then .stopped else .between (if s.settleRounds.fastCondition then .fast else .slow)
    haltOwed := if s.link.pollList = [] then false else s.link.haltOwed } }

/-- The state in which the record `h` has left slot `i` (R1, R7, R143): the slot is empty with its release fields, the address
has left the map and the slot the poll list, and its poll in flight is orphaned (R153). An awaited round with an empty list is
cancelled (R147), with what HALT_ALL it owed (log 12); a round with no poll open and no slot left to poll completes (R145, log
11), unless its completion waits behind a reply's events (log 27). A HALT_ALL that is being sent goes on (log 32). -/
def State.slotReleased (s : State) (i : Slot) (h : Hoist) (cause : Release) : State :=
  let list := s.link.pollList.filter fun j => decide (j ≠ i)
  let t : State := { s with
    slots := s.slots.set i { s.slot i with record := none, release := cause, releasedAddress := some h.address }
    nodeMap := s.nodeMap.filter fun e => decide (e.1 ≠ h.address)
    link := { s.link with
      pollList := list
      poll := s.link.poll.map fun p => if p.slot = i then { p with orphaned := true } else p } }
  match s.link.round with
  | .stopped => t
  | .between _ => if list = [] then { t with link := { t.link with round := .stopped, haltOwed := false } } else t
  | .inRound =>
    if s.link.poll = none ∧ s.eventsWaiting = none ∧ ∀ j ∈ list, ∃ l ∈ s.link.lastPolled, j ≤ l then t.roundCompleted else t

/-- The state in which the record `h` has left slot `i` with its attention flag set (R10, R11, R23). -/
def State.slotReleasedNoted (s : State) (i : Slot) (h : Hoist) (cause : Release) : State :=
  (s.setSlot i { s.slot i with attention := true }).slotReleased i h cause

/-! ### Fields of a LOOK block (R181) -/

/-- The number that bytes hold, most significant first. -/
def numberOf (bytes : List Byte) : Nat := bytes.foldl (fun n b => n * 256 + b.toNat) 0

/-- The numbers in the fields of a block, by the fields' widths in bytes. -/
def fieldsOf : List Nat → List Byte → List Nat
  | [], _ => []
  | w :: rest, bytes => numberOf (bytes.take w) :: fieldsOf rest (bytes.drop w)

/-- An unsigned field of `w` bytes: the value, or all ones where it is absent. -/
def unsignedField (w : Nat) : Option Nat → Nat
  | some v => v % 256 ^ w
  | none => 256 ^ w - 1

/-- A signed field of `w` bytes: two's complement, or the most negative value where it is absent. -/
def signedField (w : Nat) : Option Int → Nat
  | some v => (v % (256 ^ w : Nat)).toNat
  | none => 256 ^ w / 2

/-- A yes/no field. -/
def yesField (b : Bool) : Nat := if b then 1 else 0

/-- A set of conditions: code c in bit c − 1. -/
def condField (a : CondSet) : Nat := ((Cond.all.filter fun c => decide (c ∈ a)).map fun c => 2 ^ (c.code - 1)).sum

/-- A set of slots: slot n in bit n. -/
def slotsField (a : List Slot) : Nat := (((List.finRange 32).filter fun i => decide (i ∈ a)).map fun i => 2 ^ i.val).sum

/-! ### The states in which RESTART and LINKCFG are accepted, and what a console sends -/

/-- No group is active and no hoist is jogging, stopping, admitting or retiring: the acceptance conditions of RESTART and
LINKCFG (R120, R157). -/
def State.Quiet (s : State) : Prop :=
  (∀ k, (s.group k).state = .empty ∨ (s.group k).state = .idle ∨ (s.group k).state = .faulted) ∧
    ∀ i, ∀ h ∈ s.record i, h.state = .ready ∨ h.state = .lost ∨ h.state = .moving

/-- The bytes that a console sends for a row of the table that is a console command or one of its bytes (R169, R182). -/
def consoleBytes : Instr → Option (List Byte)
  | .look kind block index => some [0x10, kind, block, index]
  | .continueByte => some [0x5A]
  | .nullByte => some [0x00]
  | .summary => some [0x11]
  | .clrattn kind index => some [0x12, kind, index]
  | .admitHoist slot address lower upper trim =>
    some [0x20, slot, address, hiByte lower, loByte lower, hiByte upper, loByte upper, hiByte trim, loByte trim]
  | .amend slot lower upper trim overload underload shift jogDemand =>
    some [0x21, slot, hiByte lower, loByte lower, hiByte upper, loByte upper, hiByte trim, loByte trim, overload, underload,
      shift, hiByte jogDemand, loByte jogDemand]
  | .retire slot => some [0x22, slot]
  | .assign slot group => some [0x23, slot, group]
  | .clrflags slot => some [0x25, slot]
  | .setgroup group level gain landing mask stepPeriod settle holdMs stopMs landMs =>
    some [0x30, group, level, gain, landing, mask, stepPeriod, settle, hiByte holdMs, loByte holdMs, hiByte stopMs,
      loByte stopMs, hiByte landMs, loByte landMs]
  | .queue group target cruise accel source after =>
    some [0x31, group, hiByte target, loByte target, hiByte cruise, loByte cruise, hiByte accel, loByte accel, source, after]
  | .flush group => some [0x32, group]
  | .arm group => some [0x33, group]
  | .go group => some [0x34, group]
  | .hold group => some [0x35, group]
  | .hold8 => some [0x35, 8]
  | .halt group => some [0x36, group]
  | .halt8 => some [0x36, 8]
  | .stagespd group cruise => some [0x37, group, hiByte cruise, loByte cruise]
  | .stagetgt group target => some [0x38, group, hiByte target, loByte target]
  | .ackfault group => some [0x39, group]
  | .jog slot direction distance => some [0x40, slot, direction, hiByte distance, loByte distance]
  | .linkcfg timeout threshold idle => some [0x50, hiByte timeout, loByte timeout, threshold, hiByte idle, loByte idle]
  | .permit => some [0x51]
  | .restart => some [0x52]
  | .unknownCommandByte _ | .csFallingEdge | .csRisingEdge | .porst _ _ _ _ | .estopAssertion | .estopRelease
  | .cueRisingEdge _ | .cueFallingEdge _ | .stepTimerExpiry _ | .holdTimerExpiry _ | .landingTimerExpiry _
  | .stopTimerExpiry _ | .jogHoldTimerExpiry | .responseTimerExpiry | .roundStart | .poll | .endOfPoll | .haltAll
  | .statusReply _ _ _ _ _ _ | .identReply _ _ _ _ _ | .replyFirstStartBit _ | .replyByteGapExpiry _ | .argumentByte _
  | .responseByte _ => none

/-- Bytes sent one after another as ARGUMENT_BYTE rows (logs 6 and 7). -/
def sendBytes : List Byte → State → Host.Outcome State Fault Refusal
  | [], s => .next s
  | b :: rest, s =>
    match exec (.argumentByte b) s with
    | .next t => sendBytes rest t
    | .fault f => .fault f
    | .refused r => .refused r

end Sys2Proof.Machine
end

