-- ==== Sys2Proof/Certificates/Slice0/Obligations.lean ====
section
/-! DEFINITION. The statements for the provers. A result is written as the whole next state, so that it says its frame
too: what is not named is as before. `answering` adds the command's answer in the port (R165) and, as every command's
outcome does, ends a slow wait where rounds have become fast (R146). -/

open Sys2Proof Sys2Proof.Machine

/-! ### The step -/

/-- A step takes the command at the front of the queue. -/
def Obligations.StepRunsFrontCommand : Prop :=
  ∀ (c : Instr) (s : State), step { s with pending := c :: s.pending } = exec c s

/-- On an empty queue, what waits within this moment is taken (logs 26 and 27); then the frame that DLC begins at this very
moment comes due, and where there is none, one microsecond passes (log 2): only clocks, timers and the line move, and
exactly the rows that come due with it wait afterwards, in any order (log 3). The frame being sent ends (R140), the
response timer runs out (R149), and on a quiet line with no poll open the next frame comes due: an owed HALT_ALL once the
frame gap after the last byte has passed (R155); otherwise, once the gap after the last exchange has passed, the next poll
of a round, or the awaited round, at slow pace one idle interval after the last round's start (R144, R146, R149, R159). -/
def Obligations.IdleStepTicksClock : Prop :=
  ∀ s : State, s.pending = [] →
    let u := s.deliverWaiting.deliverEvents
    let l := u.link
    let free (l : Link) := l.poll = none ∧ l.line = .quiet
    let haltDue (l : Link) := free l ∧ l.haltOwed = true ∧ l.lineGap = 0
    let pollDue (l : Link) := free l ∧ l.haltOwed = false ∧ l.round = .inRound ∧ l.gap = 0 ∧
      ∃ j ∈ l.pollList, ∀ m ∈ l.lastPolled, m < j
    let roundDue (l : Link) (now : Nat) := free l ∧ l.haltOwed = false ∧ l.gap = 0 ∧
      (l.round = .between .fast ∨ l.round = .between .slow ∧
        ∀ start ∈ l.roundStart, start + l.idleInterval * 1000 ≤ now)
    let gapAfter (gap : Nat) : Nat := match l.line with
      | .quiet => gap - 1
      | .sendingHalt left | .cutPoll _ left => if left ≤ 1 then 30 else gap
      | .sendingPoll _ _ | .discarding => gap
    (s.safety.estopWaiting = false → s.eventsWaiting = none → u = s) ∧
    (haltDue l → step s = .next { u with pending := [.haltAll] }) ∧
    (pollDue l → step s = .next { u with pending := [.poll] }) ∧
    (roundDue l u.now → step s = .next { u with pending := [.roundStart] }) ∧
    (¬ haltDue l → ¬ pollDue l → ¬ roundDue l u.now → ∃ t, step s = .next t ∧
      t.slots = u.slots ∧ t.nodeMap = u.nodeMap ∧ t.port = u.port ∧ t.eventsWaiting = none ∧ t.now = u.now + 1 ∧
      t.safety = { u.safety with jogTimer := u.safety.jogTimer.map (· - 1) } ∧
      (∀ k, t.group k = { u.group k with
        stepTimer := (u.group k).stepTimer.map (· - 1)
        holdTimer := (u.group k).holdTimer.map (· - 1)
        landingTimer := (u.group k).landingTimer.map (· - 1)
        stopTimer := (u.group k).stopTimer.map (· - 1) }) ∧
      t.link = { l with
        poll := l.poll.map fun p => match p.stage with
          | .awaiting left => { p with stage := .awaiting (left - 1) }
          | .sending | .receiving _ => p
        line := match l.line with
          | .sendingPoll bytes left => .sendingPoll bytes (left - 1)
          | .sendingHalt left => if left ≤ 1 then .quiet else .sendingHalt (left - 1)
          | .cutPoll b left => if left ≤ 1 then .quiet else .cutPoll b (left - 1)
          | .quiet => .quiet
          | .discarding => .discarding
        gap := gapAfter l.gap
        lineGap := gapAfter l.lineGap } ∧
      t.pending.Perm u.dueRows ∧
      (∀ k, (.stepTimerExpiry k ∈ t.pending ↔ (u.group k).stepTimer = some 1) ∧
        (.holdTimerExpiry k ∈ t.pending ↔ (u.group k).holdTimer = some 1) ∧
        (.landingTimerExpiry k ∈ t.pending ↔ (u.group k).landingTimer = some 1) ∧
        (.stopTimerExpiry k ∈ t.pending ↔ (u.group k).stopTimer = some 1)) ∧
      (.jogHoldTimerExpiry ∈ t.pending ↔ u.safety.jogTimer = some 1) ∧
      (.endOfPoll ∈ t.pending ↔ ∃ p bytes, l.poll = some p ∧ p.stage = .sending ∧ l.line = .sendingPoll bytes 1) ∧
      (.responseTimerExpiry ∈ t.pending ↔
        ∃ p, l.poll = some p ∧ p.stage = .awaiting 1 ∧ ∀ bytes left, l.line ≠ .sendingPoll bytes left) ∧
      (.haltAll ∈ t.pending ↔ haltDue t.link) ∧ (.poll ∈ t.pending ↔ pollDue t.link) ∧
      (.roundStart ∈ t.pending ↔ roundDue t.link t.now))

/-! ### Reset and the invariants -/

/-- PORST_N leaves every block at the values of R25, R51, R138, R160 and R178, for any levels of the input lines. What the model
adds to the blocks is its own choice: both frame gaps read 0 (DESIGN CHOICE, log 14), no assertion and no reply's events wait
(DESIGN CHOICE, logs 26 and 27), no byte stands on MISO (DESIGN CHOICE, log 8), and the queue, the clock and the count of free
values stay (DESIGN CHOICE, log 25). -/
def Obligations.PorstResetsEveryBlock : Prop :=
  ∀ (estopLow cue0 cue1 csLow : Bool) (s : State), ∃ t, exec (.porst estopLow cue0 cue1 csLow) s = .next t ∧
    (∀ i, t.slot i = ⟨none, .none, none, false⟩) ∧ t.nodeMap = [] ∧ t.eventsWaiting = none ∧
    (∀ k, t.group k = {
      state := .empty, members := [],
      settings := ⟨25, 16, 3, ⟨true, true, true⟩, 20, 5, 300, 2000, 8000⟩,
      queue := [], direction := none, cruise := none, cruiseLimited := false, startRef := none, reference := none,
      residue := 0, refSpeed := 0, arrived := false, stagedSpeed := none, stagedTarget := none, holdSource := none,
      settleRemaining := 0, stopCause := none, firstFault := none, pendingFault := none, holdLost := false,
      stopTime := false, retargetLate := false, attention := false, stepTimer := none, holdTimer := none,
      landingTimer := none, stopTimer := none }) ∧
    t.link = {
      pollList := [], round := .stopped, lastPolled := none, roundStart := none, poll := none, responseTimeout := 200,
      lossThreshold := 3, idleInterval := 100, line := .quiet, gap := 0, lineGap := 0, haltOwed := false } ∧
    t.safety = {
      estopAsserted := estopLow, estopWaiting := false, cue0 := cue0, cue1 := cue1, permit := false, estopSeen := estopLow,
      estopCleared := false, jogSlot := none, jogTimer := none, lastJogEnd := none } ∧
    t.port = {
      phase := .closed, csLow := csLow, miso := none, cursorBlock := .hoistStatus, cursorStart := 0, firstLook := false,
      walk := none } ∧
    t.attn = estopLow ∧ t.mainsEn = false ∧ t.linkDe = false ∧ t.pending = s.pending ∧ t.now = s.now ∧
    t.freeCount = s.freeCount

/-- The state after PORST_N meets the invariant, for any levels of the input lines. -/
def Obligations.ResetMeetsInvariant : Prop :=
  ∀ estopLow cue0 cue1 csLow : Bool, (State.afterReset estopLow cue0 cue1 csLow).Inv

/-- Every step keeps the invariant, whatever command is at the front and whatever order the free values choose. -/
def Obligations.StepKeepsInvariant : Prop := ∀ s t : State, s.Inv → step s = .next t → t.Inv

/-- The part does not stop: from every state that meets the invariant, every step gives a next state. -/
def Obligations.InvariantStateRuns : Prop := ∀ s : State, s.Inv → s.Runs

/-- Every step keeps the node address map: one entry for each record, from its address to its slot, so that no two
records share an address (R7). -/
def Obligations.StepKeepsNodeMap : Prop := ∀ s t : State, s.NodeMapOk → step s = .next t → t.NodeMapOk

/-- Every step keeps the poll list: every slot with a record once, ascending, and no other (R143). -/
def Obligations.StepKeepsPollList : Prop := ∀ s t : State, s.PollListOk → step s = .next t → t.PollListOk

/-- Every step keeps the laws of the group records: ranges, timers, move fields, reference and fault fields. The premise on
the member sets, which StepKeepsInvariant keeps, is that of R31: no fault is posted in a GST_EMPTY group. -/
def Obligations.StepKeepsGroupRecords : Prop := ∀ s t : State, s.MembersOk → s.GroupsOk → step s = .next t → t.GroupsOk

/-- Every step keeps the laws of the port. -/
def Obligations.StepKeepsPort : Prop := ∀ s t : State, s.port.Ok → step s = .next t → t.port.Ok

/-! ### The console port -/

/-- A console command's row does what its bytes do one after another, in every phase of the transaction (R163, R164, logs 6
and 7): in the command phase the command byte and then each argument byte; in the arguments phase of the same command, with
these argument bytes begun, the bytes that are still to come; and in any other phase its bytes as that phase receives them.
So a closed port disregards the row (R168), and in the ignoring phase it returns 0xA5 and is disregarded (R166). The premise
on the pace holds in every state that a run reaches (R146). -/
def Obligations.CommandRowEqualsItsBytes : Prop :=
  ∀ (c : Instr) (bytes : List Byte) (s : State), consoleBytes c = some bytes →
    let paced := s.link.round = .between .slow → s.fastCondition = false
    let begun (rest : List Byte) : Prop := rest ≠ [] ∧ ∃ (code : ConsoleCode) (got : List Byte),
      s.port.phase = .arguments code got ∧ bytes = code.toByte :: (got ++ rest)
    (s.port.phase = .command → paced → exec c s = sendBytes bytes s) ∧
    (∀ rest, begun rest → paced → exec c s = sendBytes rest s) ∧
    (s.port.phase ≠ .command → (∀ rest, ¬ begun rest) → exec c s = sendBytes bytes s) ∧
    (s.port.phase = .closed → exec c s = .next (State.repace s)) ∧
    (s.port.phase = .ignoring →
      exec c s = .next (State.repace { s with port := { s.port with miso := some 0xA5 } }))

/-- LOOK: the named block of the named record is answered, the walk stands there, and the first LOOK of the transaction
sets the cursor; where nothing is named so, STS_RANGE and only the walk ends (R171). -/
def Obligations.LookReadsNamedRecord : Prop :=
  (∀ (s : State) (b : LookBlock) (index : Byte) (n : Nat), s.port.phase = .command → s.port.indexNames b index n →
    exec (.look b.kind.code b.code index) s = .next (State.repace { s with
      port := { s.port.answered .ok (s.block b n) with
        walk := some ⟨b, n⟩
        firstLook := true
        cursorBlock := if s.port.firstLook then s.port.cursorBlock else b
        cursorStart := if s.port.firstLook then s.port.cursorStart else n } })) ∧
  ∀ (s : State) (kind block index : Byte), s.port.phase = .command →
    (∀ (b : LookBlock) (n : Nat), kind = b.kind.code → block = b.code → ¬ s.port.indexNames b index n) →
    exec (.look kind block index) s = .next (s.answering .range [])

/-- The continue byte: the same block of the next record of the walk, wrapping after the last, or the cursor's record when
no walk is open; the cursor stays (R173). -/
def Obligations.ContinueWalksRecords : Prop :=
  ∀ s : State, s.port.phase = .command → (∀ w ∈ s.port.walk, w.index < w.block.kind.count) →
    ∃ w : WalkPosition,
      w = (match s.port.walk with
        | some v => if v.index + 1 = v.block.kind.count then ⟨v.block, 0⟩ else ⟨v.block, v.index + 1⟩
        | none => ⟨s.port.cursorBlock, s.port.cursorStart⟩) ∧
      exec .continueByte s =
        .next (State.repace { s with port := { s.port.answered .ok (s.block w.block w.index) with walk := some w } })

/-- Every LOOK block has its fixed length, and its fields, each at its offset and width, hold the record's values, absent
ones as all ones or, signed, as the most negative value (R165, R181, R183). -/
def Obligations.BlockLengthsFixed : Prop :=
  (∀ (s : State) (b : LookBlock) (n : Nat), (s.block b n).length = (match b with
    | .hoistStatus => 14
    | .hoistConfig => 17
    | .hoistTrack => 21
    | .groupState => 52
    | .groupConfig => 13
    | .groupQueue => 34
    | .deviceLines => 10)) ∧
  (∀ (s : State) (i : Slot),
    let e := s.slot i
    fieldsOf [1, 1, 1, 1, 1, 1, 1, 1, 2, 2, 1, 1] (s.block .hoistStatus i.val) = (match e.record with
      | some h => [i.val, h.state.code, unsignedField 1 (h.group.map (·.val)), yesField e.attention, e.release.code,
          unsignedField 1 e.releasedAddress, yesField h.nodeFlags.isSome, (h.nodeFlags.getD 0).toNat, condField h.current,
          condField h.accrued, unsignedField 1 (some h.missCount), unsignedField 1 (h.lastMiss.map (·.code))]
      | none => [i.val, 0, 255, yesField e.attention, e.release.code, unsignedField 1 e.releasedAddress, 0, 0, 0, 0, 0, 255]) ∧
    fieldsOf [1, 1, 2, 2, 2, 2, 2, 1, 1, 1, 2] (s.block .hoistConfig i.val) = (match e.record with
      | some h => [i.val, unsignedField 1 (some h.address), unsignedField 2 h.ratedLoad, unsignedField 2 h.ratedSpeed,
          unsignedField 2 (some h.lower), unsignedField 2 (some h.upper), signedField 2 (some h.trim),
          unsignedField 1 (some h.overloadPct), unsignedField 1 (some h.underloadPct), unsignedField 1 (some h.shiftPct),
          unsignedField 2 (some h.jogDemand)]
      | none => [i.val, 255, 65535, 65535, 65535, 65535, 0x8000, 255, 255, 255, 65535]) ∧
    fieldsOf [1, 3, 2, 2, 2, 1, 4, 1, 3, 2] (s.block .hoistTrack i.val) = (match e.record with
      | some h => [i.val, unsignedField 3 h.height, unsignedField 2 h.load, unsignedField 2 h.baseline,
          unsignedField 2 (some h.demand), (match h.direction with | .none => 0 | .up => 1 | .down => 2),
          signedField 4 h.deviation, yesField h.landed, unsignedField 3 h.jogStart, unsignedField 2 h.jogDistance]
      | none => [i.val, 0xFFFFFF, 65535, 65535, 65535, 255, 0x80000000, 255, 0xFFFFFF, 65535])) ∧
  (∀ (s : State) (k : GroupId),
    let g := s.group k
    let entry (c : Option Cue) : List Nat := match c with
      | some c => [unsignedField 2 (some c.target), unsignedField 2 (some c.cruise), unsignedField 2 (some c.accel),
          (match c.source with | .console => 0 | .cue0 => 1 | .cue1 => 2 | .after _ => 3),
          (match c.source with | .after j => j.val | _ => 255)]
      | none => [65535, 65535, 65535, 255, 255]
    fieldsOf [1, 1, 4, 1, 1, 4, 1, 4, 4, 2, 4, 1, 2, 2, 1, 1, 1, 1, 1, 1, 4, 4, 1, 1, 4] (s.block .groupState k.val) =
      [k.val, g.state.code, slotsField g.members, yesField g.attention,
        (match g.direction with | none => 255 | some .up => 1 | some .down => 2), unsignedField 4 g.cruise,
        yesField g.cruiseLimited, signedField 4 g.startRef, signedField 4 g.reference, unsignedField 2 (some g.residue),
        unsignedField 4 (some g.refSpeed), yesField g.arrived, unsignedField 2 g.stagedSpeed,
        unsignedField 2 g.stagedTarget,
        (match g.holdSource with | none => 255 | some .console => 1 | some .line0 => 2 | some .line1 => 3),
        unsignedField 1 (some g.settleRemaining),
        (match g.stopCause with | none => 255 | some .halt => 16 | some .holdLost => 17 | some (.fault c) => c.code),
        yesField g.holdLost + 2 * yesField g.stopTime + 4 * yesField g.retargetLate] ++
      (match g.firstFault with
        | some f => [f.cause.code, unsignedField 1 (f.slot.map (·.val)), signedField 4 f.value, signedField 4 f.reference]
        | none => [255, 255, 0x80000000, 0x80000000]) ++
      (match g.pendingFault with
        | some f => [f.cause.code, f.slot.val, signedField 4 f.value]
        | none => [255, 255, 0x80000000]) ∧
    fieldsOf [1, 1, 1, 1, 1, 1, 1, 2, 2, 2] (s.block .groupConfig k.val) =
      [k.val, unsignedField 1 (some g.settings.levelTol), unsignedField 1 (some g.settings.gain),
        unsignedField 1 (some g.settings.landingTol),
        yesField g.settings.stopMask.underload + 2 * yesField g.settings.stopMask.dev +
          4 * yesField g.settings.stopMask.loadShift,
        unsignedField 1 (some g.settings.stepPeriod), unsignedField 1 (some g.settings.settleRounds),
        unsignedField 2 (some g.settings.holdTimeout), unsignedField 2 (some g.settings.stopTimeout),
        unsignedField 2 (some g.settings.landingTimeout)] ∧
    fieldsOf [1, 1, 2, 2, 2, 1, 1, 2, 2, 2, 1, 1, 2, 2, 2, 1, 1, 2, 2, 2, 1, 1] (s.block .groupQueue k.val) =
      [k.val, unsignedField 1 (some g.queue.length)] ++ entry g.queue[0]? ++ entry g.queue[1]? ++ entry g.queue[2]? ++
        entry g.queue[3]?) ∧
  (∀ (s : State) (n : Nat), fieldsOf [1, 1, 1, 1, 1, 2, 1, 2] (s.block .deviceLines n) =
    [yesField s.safety.estopAsserted + 2 * yesField s.safety.cue0 + 4 * yesField s.safety.cue1 + 8 * yesField s.mainsEn +
        16 * yesField s.safety.permit + 32 * yesField s.safety.estopSeen + 64 * yesField s.safety.estopCleared,
      unsignedField 1 (s.safety.jogSlot.map (·.val)), unsignedField 1 (s.safety.lastJogEnd.map (·.slot.val)),
      (match s.safety.lastJogEnd with
        | none => 255 | some ⟨_, .distance⟩ => 1 | some ⟨_, .halt⟩ => 2 | some ⟨_, .hold⟩ => 3
        | some ⟨_, .condition _⟩ => 4 | some ⟨_, .estop⟩ => 5),
      (match s.safety.lastJogEnd with | some ⟨_, .condition c⟩ => c.code | _ => 255),
      unsignedField 2 (some s.link.responseTimeout), unsignedField 1 (some s.link.lossThreshold),
      unsignedField 2 (some s.link.idleInterval)]) ∧
  [HoistState.admitting, .ready, .moving, .jogging, .stopping, .lost, .retiring].map (·.code) = [1, 2, 3, 4, 5, 6, 7] ∧
  [GroupState.empty, .idle, .armed, .moving, .stopping, .settling, .faulted].map (·.code) = [0, 1, 2, 3, 4, 5, 6] ∧
  [Release.none, .retired, .retiredUnconfirmed, .retiredDirect, .admitRefused, .admitUnanswered].map (·.code) =
    [0, 1, 2, 3, 4, 5] ∧
  [MissReason.timeout, .early, .length, .crc, .address, .kind, .stale, .range].map (·.code) = [1, 2, 3, 4, 5, 6, 7, 8] ∧
  [Cond.estop, .lost, .nodeFault, .overload, .limit, .xdev, .landTime, .stopTime, .underload, .dev, .loadShift, .linkErr,
    .satHigh, .satLow].map (·.code) = [1, 2, 3, 4, 5, 6, 7, 8, 9, 10, 11, 12, 13, 14]

/-- SUMMARY: six bytes, the slot flags with slot 0 in the least significant bit of the fourth, the group flags, the device
bits; it clears nothing, and ATTN is high exactly while one of them is set (R175, R177). -/
def Obligations.SummaryShowsEveryFlag : Prop :=
  ∀ s : State, s.port.phase = .command → ∃ b3 b2 b1 b0 g d : Byte,
    exec .summary s = .next (s.answering .ok [b3, b2, b1, b0, g, d]) ∧
    (∀ i : Slot, (b3 ++ b2 ++ b1 ++ b0).getLsbD i = (s.slot i).attention) ∧
    (∀ k : GroupId, g.getLsbD k = (s.group k).attention) ∧ d.getLsbD 0 = s.safety.estopSeen ∧
    d.getLsbD 1 = s.safety.estopCleared ∧ (∀ j, 2 ≤ j → d.getLsbD j = false) ∧
    (s.attn = true ↔ (∃ i, (s.slot i).attention = true) ∨ (∃ k, (s.group k).attention = true) ∨
      s.safety.estopSeen = true ∨ s.safety.estopCleared = true)

/-- CLRATTN: one slot's flag, one group's flag or both device bits, and nothing else; otherwise STS_RANGE (R176). -/
def Obligations.ClrattnClearsNamedFlag : Prop :=
  ∀ (s : State) (index : Byte), s.port.phase = .command →
    (∀ i : Slot, index.toNat = i.val →
      exec (.clrattn 0 index) s = .next ((s.setSlot i { s.slot i with attention := false }).answering .ok [])) ∧
    (∀ k : GroupId, index.toNat = k.val →
      exec (.clrattn 1 index) s = .next ((s.withGroup k { s.group k with attention := false }).answering .ok [])) ∧
    exec (.clrattn 2 index) s = .next (State.answering
      { s with safety := { s.safety with estopSeen := false, estopCleared := false } } .ok []) ∧
    (32 ≤ index.toNat → exec (.clrattn 0 index) s = .next (s.answering .range [])) ∧
    (8 ≤ index.toNat → exec (.clrattn 1 index) s = .next (s.answering .range [])) ∧
    ∀ kind : Byte, 3 ≤ kind.toNat → exec (.clrattn kind index) s = .next (s.answering .range [])

/-- The bytes of a transaction, each in its phase: in the command phase a null byte, an unknown command byte and a command
byte with arguments; in the arguments phase an argument byte that is not the last; in the response phase a filler; in the
ignoring phase any byte, which returns 0xA5 and is disregarded; and in the closed phase none has an effect. Outside the
command phase a byte acts by the phase alone, whichever row carries it: 0x00 and 0x5A are then arguments, fillers or
disregarded as any other byte (R163 to R166). Two clauses are the model's: that the row ARGUMENT_BYTE carries a command
byte in the command phase (DESIGN CHOICE, log 7), and that an unknown command byte leaves the walk position as it stands
(DEDUCED, log 23). -/
def Obligations.BytesActByPhase : Prop :=
  let carries (row : Instr) (b : Byte) : Prop := row = .argumentByte b ∨ row = .responseByte b ∨
    row = .unknownCommandByte b ∨ row = .nullByte ∧ b = 0x00 ∨ row = .continueByte ∧ b = 0x5A
  (∀ s : State, s.port.phase = .command →
    exec .nullByte s = .next (State.repace { s with port := { s.port with miso := some 0xA5 } })) ∧
  (∀ (s : State) (b : Byte), s.port.phase = .command → b ≠ 0x00 → b ≠ 0x5A → (∀ c : ConsoleCode, c.toByte ≠ b) →
    exec (.unknownCommandByte b) s = .next (State.repace
      { s with port := { s.port with phase := .response 0xA5 [0x80] true, miso := some 0xA5 } })) ∧
  (∀ (s : State) (c : ConsoleCode), s.port.phase = .command → 0 < c.argCount →
    exec (.argumentByte c.toByte) s = .next (State.repace
      { s with port := { s.port with phase := .arguments c [], miso := some 0xA5 } })) ∧
  (∀ (s : State) (c : ConsoleCode) (got : List Byte) (row : Instr) (b : Byte), carries row b →
    s.port.phase = .arguments c got → got.length + 1 < c.argCount →
    exec row s = .next (State.repace
      { s with port := { s.port with phase := .arguments c (got ++ [b]), miso := some 0xA5 } })) ∧
  (∀ (s : State) (row : Instr) (filler next : Byte) (rest : List Byte) (thenIgnore : Bool), carries row filler →
    s.port.phase = .response next rest thenIgnore →
    exec row s = .next (State.repace
      { s with port := { s.port with
        miso := some next
        phase := match rest with
          | [] => if thenIgnore then .ignoring else .command
          | b :: more => .response b more thenIgnore } })) ∧
  ∀ (s : State) (row : Instr) (b : Byte), carries row b →
    (s.port.phase = .ignoring →
      exec row s = .next (State.repace { s with port := { s.port with miso := some 0xA5 } })) ∧
    (s.port.phase = .closed → exec row s = .next (State.repace s))

/-- The edges of CS_N: a fall opens a transaction; a rise closes it from any phase, ends the walk, lets the next LOOK set
the cursor, and changes nothing else (R163, R168, R172). -/
def Obligations.ChipSelectOpensAndCloses : Prop :=
  (∀ s : State, s.port.csLow = false →
    exec .csFallingEdge s = .next (State.repace
      { s with port := { s.port with csLow := true, phase := .command, miso := none } })) ∧
  ∀ s : State, s.port.csLow = true →
    exec .csRisingEdge s = .next (State.repace
      { s with port := { s.port with
        csLow := false, phase := .closed, miso := none, walk := none, firstLook := false } })

/-! ### Hoist records -/

/-- An accepted ADMIT creates the record with R9's values, clears the slot's attention, keeps its release fields, enters
the address map and the poll list, and starts a round if DLC was stopped, its first frame a frame gap after the last one
on the line (R8, R9, R143, R144, R147). That such a round owes a HALT_ALL while ESTOP_N is asserted, which the row HALT_ALL
then sends, is the model's reading of R144 and R156 (DEDUCED, log 15). -/
def Obligations.AdmitCreatesRecord : Prop :=
  ∀ (s : State) (slot address : Byte) (lower upper trim : BitVec 16) (i : Slot), s.port.phase = .command →
    slot.toNat = i.val → s.record i = none → 1 ≤ address.toNat → address.toNat ≤ 62 →
    (∀ e ∈ s.nodeMap, e.1 ≠ address.toNat) → lower.toNat < upper.toNat → upper.toNat ≤ 50000 →
    -2000 ≤ trim.toInt → trim.toInt ≤ 2000 →
    exec (.admitHoist slot address lower upper trim) s = .next (State.answering
      { s with
        slots := s.slots.set i { s.slot i with
          attention := false
          record := some {
            state := .admitting, address := address.toNat, group := none, ratedLoad := none, ratedSpeed := none,
            lower := lower.toNat, upper := upper.toNat, trim := trim.toInt, overloadPct := 110, underloadPct := 50,
            shiftPct := 20, jogDemand := 250, height := none, load := none, nodeFlags := none, demand := 0,
            direction := .none, deviation := none, landed := false, baseline := none, jogStart := none,
            jogDistance := none, current := [], accrued := [], missCount := 0, lastMiss := none, seqBit := false } }
        nodeMap := insertAddress address.toNat i s.nodeMap
        link :=
          if s.link.round = .stopped then
            { s.link with
              pollList := insertSlot i s.link.pollList
              round := .inRound
              lastPolled := none
              roundStart := some s.now
              gap := s.link.lineGap
              haltOwed := s.link.haltOwed || s.safety.estopAsserted }
          else { s.link with pollList := insertSlot i s.link.pollList } } .ok [])

/-- The refusals of ADMIT, in the order of its checks; a refused ADMIT changes nothing (R8). -/
def Obligations.AdmitRefusesInOrder : Prop :=
  ∀ (s : State) (slot address : Byte) (lower upper trim : BitVec 16), s.port.phase = .command →
    (32 ≤ slot.toNat → exec (.admitHoist slot address lower upper trim) s = .next (s.answering .range [])) ∧
    ∀ i : Slot, slot.toNat = i.val →
      (s.record i ≠ none → exec (.admitHoist slot address lower upper trim) s = .next (s.answering .state [])) ∧
      (s.record i = none →
        (address.toNat = 0 ∨ 63 ≤ address.toNat →
          exec (.admitHoist slot address lower upper trim) s = .next (s.answering .range [])) ∧
        (1 ≤ address.toNat → address.toNat ≤ 62 →
          ((∃ e ∈ s.nodeMap, e.1 = address.toNat) →
            exec (.admitHoist slot address lower upper trim) s = .next (s.answering .duplicate [])) ∧
          ((∀ e ∈ s.nodeMap, e.1 ≠ address.toNat) →
            (50000 < lower.toNat ∨ 50000 < upper.toNat ∨ upper.toNat ≤ lower.toNat ∨ trim.toInt < -2000 ∨
              2000 < trim.toInt) →
            exec (.admitHoist slot address lower upper trim) s = .next (s.answering .range []))))

/-- AMEND: an accepted one writes its seven fields, the last four clamped, and nothing else; the refusals come in the
order of its checks (R21). -/
def Obligations.AmendWritesSevenFields : Prop :=
  ∀ (s : State) (slot : Byte) (lower upper trim : BitVec 16) (overload underload shift : Byte) (jogDemand : BitVec 16),
    s.port.phase = .command →
    let run := exec (.amend slot lower upper trim overload underload shift jogDemand) s
    let limitsGood := lower.toNat < upper.toNat ∧ upper.toNat ≤ 50000 ∧ -2000 ≤ trim.toInt ∧ trim.toInt ≤ 2000
    (32 ≤ slot.toNat → run = .next (s.answering .range [])) ∧
    ∀ i : Slot, slot.toNat = i.val →
      (s.record i = none → run = .next (s.answering .empty [])) ∧
      ∀ h, s.record i = some h →
        let placed := (h.state = .ready ∨ h.state = .lost) ∧
          ∀ k ∈ h.group, (s.group k).state = .idle ∨ (s.group k).state = .faulted
        (¬ placed → run = .next (s.answering .state [])) ∧
        (placed → ¬ limitsGood → run = .next (s.answering .range [])) ∧
        (placed → limitsGood →
          let o := intoRange 100 125 overload.toNat
          let u := intoRange 10 90 underload.toNat
          let f := intoRange 5 50 shift.toNat
          let j := intoRange 50 500 jogDemand.toNat
          run = .next ((s.withRecord i { h with
            lower := lower.toNat
            upper := upper.toNat
            trim := trim.toInt
            overloadPct := o
            underloadPct := u
            shiftPct := f
            jogDemand := j }).answering
              (if o = overload.toNat ∧ u = underload.toNat ∧ f = shift.toNat ∧ j = jogDemand.toNat then .ok else .clamped)
              []))

/-- RETIRE: the record leaves its group; a HST_READY one becomes HST_RETIRING with demand 0 and stays listed, a HST_LOST or
HST_ADMITTING one leaves its slot at once with REL_RETIRED_DIRECT, its poll in flight orphaned; the refusals come in the
order of the checks (R22, R34, R143, R147, R153). Four points of the whole next state are the model's: where a round is under
way with no poll open and no slot is left to poll, it completes at that moment (DESIGN CHOICE, log 11), behind a reply's events
where these wait (DESIGN CHOICE, log 27); a HALT_ALL still owed is dropped with the awaited round, when the last slot leaves
the list (DEDUCED, log 12), and one that is being sent then is sent to its end (DESIGN CHOICE, log 32). -/
def Obligations.RetireByHoistState : Prop :=
  ∀ (s : State) (slot : Byte), s.port.phase = .command →
    let run := exec (.retire slot) s
    (32 ≤ slot.toNat → run = .next (s.answering .range [])) ∧
    ∀ i : Slot, slot.toNat = i.val →
      (s.record i = none → run = .next (s.answering .empty [])) ∧
      ∀ h, s.record i = some h →
        let free := ∀ k ∈ h.group, (s.group k).state = .empty ∨ (s.group k).state = .idle ∨ (s.group k).state = .faulted
        (h.state ≠ .ready → h.state ≠ .lost → h.state ≠ .admitting → run = .next (s.answering .state [])) ∧
        (¬ free → run = .next (s.answering .state [])) ∧
        (free → h.state = .ready →
          run = .next (((s.withoutMember i h).withRecord i
            { h with group := none, state := .retiring, demand := 0, direction := .none }).answering .ok [])) ∧
        (free → h.state = .lost ∨ h.state = .admitting →
          let list := s.link.pollList.filter fun j => decide (j ≠ i)
          let emptied : SlotEntry :=
            { s.slot i with record := none, release := .retiredDirect, releasedAddress := some h.address }
          run = .next (((s.withoutMember i h).slotReleased i h .retiredDirect).answering .ok []) ∧
          (∃ t, run = .next t ∧ t.slot i = emptied ∧
            t.nodeMap = (s.nodeMap.filter fun e => decide (e.1 ≠ h.address)) ∧ t.link.pollList = list) ∧
          ((s.link.round = .inRound → s.link.poll ≠ none) →
            let cancelled : Bool := match s.link.round with
              | .between _ => list.isEmpty
              | _ => false
            run = .next (State.answering
              { s.withoutMember i h with
                slots := s.slots.set i emptied
                nodeMap := s.nodeMap.filter fun e => decide (e.1 ≠ h.address)
                link := { s.link with
                  pollList := list
                  poll := s.link.poll.map fun p => if p.slot = i then { p with orphaned := true } else p
                  round := if cancelled then .stopped else s.link.round
                  haltOwed := if cancelled then false else s.link.haltOwed } } .ok [])))

/-- ASSIGN: the slot leaves the old group's set and enters the new group's set at its ascending position, a GST_EMPTY group
becoming GST_IDLE; naming the present group changes nothing; the refusals come in the order of the checks (R32, R33). -/
def Obligations.AssignMovesMembership : Prop :=
  ∀ (s : State) (slot group : Byte), s.port.phase = .command →
    let run := exec (.assign slot group) s
    (32 ≤ slot.toNat ∨ 9 ≤ group.toNat → run = .next (s.answering .range [])) ∧
    ∀ i : Slot, slot.toNat = i.val → group.toNat ≤ 8 →
      (s.record i = none → run = .next (s.answering .empty [])) ∧
      ∀ h, s.record i = some h →
        let rest (k : GroupId) := (s.group k).state = .empty ∨ (s.group k).state = .idle ∨ (s.group k).state = .faulted
        (¬ ((h.state = .ready ∨ h.state = .lost) ∧ ∀ k ∈ h.group, rest k) → run = .next (s.answering .state [])) ∧
        (h.state = .ready ∨ h.state = .lost → (∀ k ∈ h.group, rest k) →
          (group.toNat = 8 →
            run = .next (((s.withoutMember i h).withRecord i { h with group := none }).answering .ok [])) ∧
          ∀ k : GroupId, group.toNat = k.val →
            (¬ rest k → run = .next (s.answering .state [])) ∧
            (rest k → h.group = some k → run = .next (s.answering .ok [])) ∧
            (rest k → h.group ≠ some k →
              run = .next ((((s.withoutMember i h).withRecord i { h with group := some k }).withGroup k
                { s.group k with
                  members := insertSlot i (s.group k).members
                  state := if (s.group k).state = .empty then .idle else (s.group k).state }).answering .ok [])))

/-- CLRFLAGS: the accrued set is emptied and nothing else changes; STS_RANGE and STS_EMPTY otherwise (R119). -/
def Obligations.ClrflagsEmptiesAccruedSet : Prop :=
  ∀ (s : State) (slot : Byte), s.port.phase = .command →
    (32 ≤ slot.toNat → exec (.clrflags slot) s = .next (s.answering .range [])) ∧
    ∀ i : Slot, slot.toNat = i.val →
      (s.record i = none → exec (.clrflags slot) s = .next (s.answering .empty [])) ∧
      ∀ h, s.record i = some h →
        exec (.clrflags slot) s = .next ((s.withRecord i { h with accrued := [] }).answering .ok [])

/-! ### Groups and cue queues -/

/-- SETGROUP: nine settings, each put into its range, the step period rounded down to a multiple of 10 and the mask's other
bits discarded; STS_CLAMPED tells of any change; an active group refuses it (R38, R39). -/
def Obligations.SetgroupWritesSettings : Prop :=
  ∀ (s : State) (group level gain landing mask stepPeriod settle : Byte) (holdMs stopMs landMs : BitVec 16),
    s.port.phase = .command →
    let run := exec (.setgroup group level gain landing mask stepPeriod settle holdMs stopMs landMs) s
    (8 ≤ group.toNat → run = .next (s.answering .range [])) ∧
    ∀ k : GroupId, group.toNat = k.val →
      ((s.group k).state = .armed ∨ (s.group k).state = .moving ∨ (s.group k).state = .stopping ∨
        (s.group k).state = .settling → run = .next (s.answering .state [])) ∧
      ((s.group k).state = .empty ∨ (s.group k).state = .idle ∨ (s.group k).state = .faulted →
        let period := intoRange 10 100 stepPeriod.toNat - intoRange 10 100 stepPeriod.toNat % 10
        run = .next ((s.withGroup k { s.group k with
          settings := {
            levelTol := intoRange 1 200 level.toNat
            gain := gain.toNat
            landingTol := intoRange 1 20 landing.toNat
            stopMask := ⟨mask.getLsbD 0, mask.getLsbD 1, mask.getLsbD 2⟩
            stepPeriod := period
            settleRounds := settle.toNat
            holdTimeout := intoRange 100 1000 holdMs.toNat
            stopTimeout := intoRange 500 5000 stopMs.toNat
            landingTimeout := intoRange 1000 30000 landMs.toNat } }).answering
          (if 1 ≤ level.toNat ∧ level.toNat ≤ 200 ∧ 1 ≤ landing.toNat ∧ landing.toNat ≤ 20 ∧ mask.toNat < 8 ∧
              10 ≤ stepPeriod.toNat ∧ stepPeriod.toNat ≤ 100 ∧ stepPeriod.toNat % 10 = 0 ∧ 100 ≤ holdMs.toNat ∧
              holdMs.toNat ≤ 1000 ∧ 500 ≤ stopMs.toNat ∧ stopMs.toNat ≤ 5000 ∧ 1000 ≤ landMs.toNat ∧
              landMs.toNat ≤ 30000 then .ok else .clamped) []))

/-- QUEUE: a cue with clamped cruise and accel at the tail, answered with its position, in every state of the group; the
refusals come in the order of the checks (R35, R36). -/
def Obligations.QueueAppendsCue : Prop :=
  ∀ (s : State) (group : Byte) (target cruise accel : BitVec 16) (source after : Byte), s.port.phase = .command →
    let run := exec (.queue group target cruise accel source after) s
    (8 ≤ group.toNat → run = .next (s.answering .range [])) ∧
    ∀ k : GroupId, group.toNat = k.val →
      (50000 < target.toNat ∨ 4 ≤ source.toNat ∨ source = 3 ∧ (8 ≤ after.toNat ∨ after.toNat = k.val) →
        run = .next (s.answering .range [])) ∧
      ∀ src : StartSource, target.toNat ≤ 50000 →
        (source = 0 ∧ src = .console ∨ source = 1 ∧ src = .cue0 ∨ source = 2 ∧ src = .cue1 ∨
          source = 3 ∧ ∃ j : GroupId, after.toNat = j.val ∧ j ≠ k ∧ src = .after j) →
        (4 ≤ (s.group k).queue.length → run = .next (s.answering .full [])) ∧
        ((s.group k).queue.length < 4 →
          run = .next ((s.withGroup k { s.group k with
            queue := (s.group k).queue ++
              [⟨target.toNat, intoRange 1 300 cruise.toNat, intoRange 10 1000 accel.toNat, src⟩] }).answering
            (if 1 ≤ cruise.toNat ∧ cruise.toNat ≤ 300 ∧ 10 ≤ accel.toNat ∧ accel.toNat ≤ 1000 then .ok else .clamped)
            [BitVec.ofNat 8 (s.group k).queue.length]))

/-- FLUSH: the queue of a group that is not active is emptied, and nothing else changes (R37). -/
def Obligations.FlushEmptiesQueue : Prop :=
  ∀ (s : State) (group : Byte), s.port.phase = .command →
    (8 ≤ group.toNat → exec (.flush group) s = .next (s.answering .range [])) ∧
    ∀ k : GroupId, group.toNat = k.val →
      ((s.group k).state = .armed ∨ (s.group k).state = .moving ∨ (s.group k).state = .stopping ∨
        (s.group k).state = .settling → exec (.flush group) s = .next (s.answering .state [])) ∧
      ((s.group k).state = .empty ∨ (s.group k).state = .idle ∨ (s.group k).state = .faulted →
        exec (.flush group) s = .next ((s.withGroup k { s.group k with queue := [] }).answering .ok []))

/-- An accepted ARM: the level estimate decides the direction, the smallest rated speed caps the cruise, and every other
move field, the stop cause and the group flags start afresh; the members are not touched (R28, R30, R40, R41). -/
def Obligations.ArmAcceptsLevelTruss : Prop :=
  ∀ (s : State) (group : Byte) (k : GroupId) (cue : Cue) (rest : List Cue) (slowest : Nat), s.port.phase = .command →
    group.toNat = k.val → (s.group k).state = .idle → (s.group k).queue = cue :: rest → s.safety.permit = true →
    (s.group k).pendingFault = none → s.SlowestMember k slowest →
    (s.MembersAll k fun h => h.state = .ready ∧ h.height.isSome = true ∧ (∃ f ∈ h.nodeFlags, f.getLsbD 0 = true) ∧
      (h.lower : Int) ≤ cue.target + h.trim ∧ (cue.target : Int) + h.trim ≤ h.upper) →
    let level := (s.normalHeights k).sum.tdiv (s.normalHeights k).length
    (∀ n ∈ s.normalHeights k, (n - level).natAbs ≤ (s.group k).settings.levelTol * 1000) →
    (s.group k).settings.landingTol * 1000 < ((cue.target : Int) * 1000 - level).natAbs →
    exec (.arm group) s = .next ((s.withGroup k { s.group k with
      state := .armed
      direction := some (if level < (cue.target : Int) * 1000 then .up else .down)
      cruise := some (min cue.cruise slowest * 1000)
      cruiseLimited := decide (slowest ≤ cue.cruise)
      startRef := none
      reference := none
      residue := 0
      refSpeed := 0
      arrived := false
      stagedSpeed := none
      stagedTarget := none
      holdSource := none
      settleRemaining := 0
      stopCause := none
      holdLost := false
      stopTime := false
      retargetLate := false
      stepTimer := none
      holdTimer := none
      landingTimer := none
      stopTimer := none }).answering .ok [])

/-- The refusals of ARM in the order of its checks: nothing changes, but that STS_PENDING makes the pending fault the
group's first-fault record and faults it (R40 to R42). -/
def Obligations.ArmRefusesInOrder : Prop :=
  ∀ (s : State) (group : Byte), s.port.phase = .command →
    let run := exec (.arm group) s
    (8 ≤ group.toNat → run = .next (s.answering .range [])) ∧
    ∀ k : GroupId, group.toNat = k.val →
      ((s.group k).state ≠ .idle → run = .next (s.answering .state [])) ∧
      ((s.group k).state = .idle → (s.group k).queue = [] → run = .next (s.answering .empty [])) ∧
      ∀ (cue : Cue) (rest : List Cue), (s.group k).state = .idle → (s.group k).queue = cue :: rest →
        (s.safety.permit = false → run = .next (s.answering .noPower [])) ∧
        (s.safety.permit = true → ∀ p, (s.group k).pendingFault = some p →
          run = .next ((s.withGroup k { s.group k with
            state := .faulted
            firstFault := some ⟨p.cause, some p.slot, p.value, (s.group k).reference⟩
            stopCause := some (.fault p.cause)
            pendingFault := none
            attention := true
            stepTimer := none
            holdTimer := none
            landingTimer := none
            stopTimer := none }).answering .pending [])) ∧
        (s.safety.permit = true → (s.group k).pendingFault = none →
          let ready := s.MembersAll k fun h => h.state = .ready ∧ h.height.isSome = true ∧
            ∃ f ∈ h.nodeFlags, f.getLsbD 0 = true
          let within := s.MembersAll k fun h =>
            (h.lower : Int) ≤ cue.target + h.trim ∧ (cue.target : Int) + h.trim ≤ h.upper
          let level := (s.normalHeights k).sum.tdiv (s.normalHeights k).length
          let flat := ∀ n ∈ s.normalHeights k, (n - level).natAbs ≤ (s.group k).settings.levelTol * 1000
          (¬ ready → run = .next (s.answering .notReady [])) ∧
          (ready → ¬ within → run = .next (s.answering .limit [])) ∧
          (ready → within → ¬ flat → run = .next (s.answering .unlevel [])) ∧
          (ready → within → flat →
            ((cue.target : Int) * 1000 - level).natAbs ≤ (s.group k).settings.landingTol * 1000 →
            run = .next (s.answering .noMove [])))

/-- GO starts a GST_ARMED group whose head cue names SRC_CONSOLE, as any start event does, and no other group; otherwise
it is refused (R45). -/
def Obligations.GoStartsArmedGroup : Prop :=
  ∀ (s : State) (group : Byte), s.port.phase = .command →
    (8 ≤ group.toNat → exec (.go group) s = .next (s.answering .range [])) ∧
    ∀ k : GroupId, group.toNat = k.val →
      ((s.group k).state ≠ .armed ∨ (∀ cue ∈ (s.group k).queue.head?, cue.source ≠ .console) →
        exec (.go group) s = .next (s.answering .state [])) ∧
      ∀ (cue : Cue) (rest : List Cue), (s.group k).state = .armed → (s.group k).queue = cue :: rest →
        cue.source = .console → exec (.go group) s = .next ((s.startMove k).answering .ok [])

/-- A start event of an armed group: hold source and hold timer by the cue's source, the start reference the truncated
average of the members' normalised heights, an immediate arrival if it lies at or beyond the target, and every
HST_READY member HST_MOVING; every other slot and group and everything else is as before (R14, R18, R44, R54 to R56). A
group that is not armed is not started (R43). A member's normalised height is its reported height less its trim, in µm
(R41, R54). -/
def Obligations.MoveStartSetsReference : Prop :=
  (∀ (s : State) (k : GroupId), s.normalHeights k = (s.group k).members.filterMap fun i =>
    (s.record i).bind fun h => h.height.map fun p => (p : Int) * 100 - h.trim * 1000) ∧
  (∀ (s : State) (k : GroupId), (s.group k).state ≠ .armed → s.startMove k = s) ∧
  ∀ (s : State) (k : GroupId) (cue : Cue) (rest : List Cue) (dir : Travel), (s.group k).state = .armed →
    (s.group k).queue = cue :: rest → (s.group k).direction = some dir →
    let start := (s.normalHeights k).sum.tdiv (s.normalHeights k).length
    let target := (cue.target : Int) * 1000
    let there : Bool := match dir with
      | .up => decide (target ≤ start)
      | .down => decide (start ≤ target)
    let source : HoldSource := match cue.source with
      | .cue0 => .line0
      | .cue1 => .line1
      | _ => .console
    s.startMove k =
      { s with
        slots := (s.startMove k).slots
        groups := s.groups.set k { s.group k with
          state := .moving
          holdSource := some source
          holdTimer := if source = .console then some ((s.group k).settings.holdTimeout * 1000) else none
          startRef := some start
          reference := some (if there then target else start)
          residue := 0
          refSpeed := 0
          arrived := there
          stepTimer := if there then none else some ((s.group k).settings.stepPeriod * 1000)
          landingTimer := if there then some ((s.group k).settings.landingTimeout * 1000) else none
          stopTimer := none } } ∧
    ∀ i, (s.startMove k).slot i =
      if i ∈ (s.group k).members then
        { s.slot i with record := (s.record i).map fun h =>
            if h.state = .ready then
              { h with
                state := .moving, demand := 0, direction := .none, deviation := none, landed := false, baseline := none }
            else h }
      else s.slot i

/-- HOLD of a group restarts the hold timer of a moving group with hold source CONSOLE with its full timeout; any other
group is refused and unchanged (R126). -/
def Obligations.HoldRestartsHoldTimer : Prop :=
  ∀ (s : State) (group : Byte), s.port.phase = .command →
    (9 ≤ group.toNat → exec (.hold group) s = .next (s.answering .range [])) ∧
    ∀ k : GroupId, group.toNat = k.val →
      ((s.group k).state = .moving → (s.group k).holdSource = some .console →
        exec (.hold group) s = .next ((s.withGroup k { s.group k with
          holdTimer := some ((s.group k).settings.holdTimeout * 1000) }).answering .ok [])) ∧
      (¬ ((s.group k).state = .moving ∧ (s.group k).holdSource = some .console) →
        exec (.hold group) s = .next (s.answering .state []))

/-- The jog by the index 8: HOLD 8 restarts the jog hold timer of a jogging hoist and is refused without one, HALT 8 ends the
jog with JEND_HALT and is STS_OK in any case, and the expiry of the jog hold timer ends it with JEND_HOLD. The end stops
the timer, records the end, sends the hoist to HST_STOPPING and sets its attention (R15, R132, R133). -/
def Obligations.JogHeldHaltedAndEnded : Prop :=
  ∀ s : State,
    (s.port.phase = .command → (∃ i, s.hoistState i = some .jogging) →
      exec .hold8 s = .next (State.answering
        { s with safety := { s.safety with jogTimer := some 300000 } } .ok [])) ∧
    (s.port.phase = .command → (∀ i, s.hoistState i ≠ some .jogging) →
      exec .hold8 s = .next (s.answering .state [])) ∧
    (s.port.phase = .command → s.safety.jogSlot = none → exec .halt8 s = .next (s.answering .ok [])) ∧
    ∀ (i : Slot) (h : Hoist), s.safety.jogSlot = some i → s.record i = some h → h.state = .jogging →
      (s.port.phase = .command → exec .halt8 s = .next ((s.jogEnded i h .halt).answering .ok [])) ∧
      (s.safety.jogTimer ≠ none → exec .jogHoldTimerExpiry s = .next (s.jogEnded i h .hold).repace)

/-- HALT of a group: an armed group is idle again with direction, cruise and head cue kept, a moving group enters the stop
sequence with STOP_HALT, and any other group is unchanged; always STS_OK, but STS_RANGE above 8 (R47). -/
def Obligations.HaltByGroupState : Prop :=
  ∀ (s : State) (group : Byte), s.port.phase = .command →
    (9 ≤ group.toNat → exec (.halt group) s = .next (s.answering .range [])) ∧
    ∀ k : GroupId, group.toNat = k.val →
      ((s.group k).state = .armed →
        exec (.halt group) s = .next ((s.withGroup k { s.group k with
          state := .idle
          stepTimer := none
          holdTimer := none
          landingTimer := none
          stopTimer := none }).answering .ok [])) ∧
      ((s.group k).state = .moving →
        exec (.halt group) s = .next ((s.enterStopping k .halt none none).answering .ok [])) ∧
      ((s.group k).state ≠ .armed → (s.group k).state ≠ .moving →
        exec (.halt group) s = .next (s.answering .ok []))

/-- The stop sequence from GST_MOVING: the cause, for a fault cause a first-fault record with the reference, the profile
left, the stop timer started, every HST_MOVING member HST_STOPPING; and, if no member is left to wait for, the stop
complete at once into GST_FAULTED for a fault cause and GST_IDLE otherwise, with attention. Nothing else changes (R15,
R66, R110, R112, R113). -/
def Obligations.StopSequenceEntersStopping : Prop :=
  ∀ (s : State) (k : GroupId) (cause : StopCause) (slot : Option Slot) (value : Option Int), (s.group k).state = .moving →
    let g := s.group k
    let first : Option FirstFault := match cause with
      | .fault c => some ⟨c, slot, value, g.reference⟩
      | _ => g.firstFault
    let stopping : Group := { g with
      state := .stopping
      stopCause := some cause
      firstFault := first
      refSpeed := 0
      residue := 0
      stagedSpeed := none
      stagedTarget := none
      stepTimer := none
      holdTimer := none
      landingTimer := none
      stopTimer := some (g.settings.stopTimeout * 1000) }
    let done : Group := { stopping with
      state := match cause with
        | .fault _ => .faulted
        | _ => .idle
      attention := true
      stopTimer := none }
    let t := s.enterStopping k cause slot value
    (s.SomeMember k (fun h => h.state ≠ .ready ∧ h.state ≠ .lost) →
      t = { s with slots := t.slots, groups := s.groups.set k stopping }) ∧
    (s.EveryMember k (fun h => h.state = .ready ∨ h.state = .lost) →
      t = { s with slots := t.slots, groups := s.groups.set k done }) ∧
    ∀ i, t.slot i =
      if i ∈ g.members then
        { s.slot i with record := (s.record i).map fun h =>
            if h.state = .moving then
              { h with state := .stopping, demand := 0, direction := .none, deviation := none, landed := false }
            else h }
      else s.slot i

/-- STAGESPD of a moving group: the cruise put into 1 to 300 and capped at the smallest rated speed is staged, STS_CLAMPED
if it differs; any other group refuses it (R48). -/
def Obligations.StagespdStagesCappedSpeed : Prop :=
  ∀ (s : State) (group : Byte) (cruise : BitVec 16), s.port.phase = .command →
    let run := exec (.stagespd group cruise) s
    (8 ≤ group.toNat → run = .next (s.answering .range [])) ∧
    ∀ k : GroupId, group.toNat = k.val →
      ((s.group k).state ≠ .moving → run = .next (s.answering .state [])) ∧
      ∀ slowest, (s.group k).state = .moving → s.SlowestMember k slowest →
        let v := min (intoRange 1 300 cruise.toNat) slowest
        run = .next ((s.withGroup k { s.group k with stagedSpeed := some v }).answering
          (if v = cruise.toNat then .ok else .clamped) [])

/-- STAGETGT of a moving group whose reference has not arrived: a target within every member's limits and strictly ahead of
the reference is staged; the refusals come in the order of the checks (R49). -/
def Obligations.StagetgtStagesTargetAhead : Prop :=
  ∀ (s : State) (group : Byte) (target : BitVec 16), s.port.phase = .command →
    let run := exec (.stagetgt group target) s
    (8 ≤ group.toNat → run = .next (s.answering .range [])) ∧
    ∀ k : GroupId, group.toNat = k.val →
      ((s.group k).state ≠ .moving ∨ (s.group k).arrived = true → run = .next (s.answering .state [])) ∧
      ∀ (dir : Travel) (reference : Int), (s.group k).state = .moving → (s.group k).arrived = false →
        (s.group k).direction = some dir → (s.group k).reference = some reference →
        let within := s.MembersAll k fun h =>
          (h.lower : Int) ≤ target.toNat + h.trim ∧ (target.toNat : Int) + h.trim ≤ h.upper
        let ahead := match dir with
          | .up => reference < (target.toNat : Int) * 1000
          | .down => (target.toNat : Int) * 1000 < reference
        (50000 < target.toNat → run = .next (s.answering .range [])) ∧
        (target.toNat ≤ 50000 → ¬ within → run = .next (s.answering .limit [])) ∧
        (target.toNat ≤ 50000 → within → ¬ ahead → run = .next (s.answering .reverse [])) ∧
        (target.toNat ≤ 50000 → within → ahead →
          run = .next ((s.withGroup k { s.group k with stagedTarget := some target.toNat }).answering .ok []))

/-- ACKFAULT: a faulted group none of whose members has a stop-class condition current is idle again without its fault; an
idle group loses its pending fault; any other refusal changes nothing (R118). -/
def Obligations.AckfaultClearsFault : Prop :=
  ∀ (s : State) (group : Byte), s.port.phase = .command →
    let run := exec (.ackfault group) s
    (8 ≤ group.toNat → run = .next (s.answering .range [])) ∧
    ∀ k : GroupId, group.toNat = k.val →
      ((s.group k).state = .faulted → s.SomeMember k (fun h => ∃ c ∈ h.current, c.condClass = .stop) →
        run = .next (s.answering .notReady [])) ∧
      ((s.group k).state = .faulted → s.EveryMember k (fun h => ∀ c ∈ h.current, c.condClass ≠ .stop) →
        run = .next ((s.withGroup k { s.group k with
          state := .idle
          firstFault := none
          stopCause := none
          stepTimer := none
          holdTimer := none
          landingTimer := none
          stopTimer := none }).answering .ok [])) ∧
      ((s.group k).state = .idle →
        run = .next ((s.withGroup k { s.group k with pendingFault := none }).answering .ok [])) ∧
      ((s.group k).state ≠ .faulted → (s.group k).state ≠ .idle → run = .next (s.answering .state []))

/-! ### Jog, lines and resets -/

/-- JOG: an accepted one drives the hoist at its jog demand, takes the reported height as its start and starts the jog hold
timer with 300 ms; the refusals come in the order of the nine checks (R129, R130). -/
def Obligations.JogStartsOrRefuses : Prop :=
  ∀ (s : State) (slot direction : Byte) (distance : BitVec 16), s.port.phase = .command →
    let run := exec (.jog slot direction distance) s
    (32 ≤ slot.toNat → run = .next (s.answering .range [])) ∧
    ∀ i : Slot, slot.toNat = i.val →
      (direction ≠ 1 ∧ direction ≠ 2 ∨ distance.toNat = 0 ∨ 500 < distance.toNat → run = .next (s.answering .range [])) ∧
      ∀ dir : Travel, (direction = 1 ∧ dir = .up ∨ direction = 2 ∧ dir = .down) → 1 ≤ distance.toNat →
        distance.toNat ≤ 500 →
        (s.record i = none → run = .next (s.answering .empty [])) ∧
        ∀ h, s.record i = some h →
          let placed := h.state = .ready ∧
            (∀ k ∈ h.group, (s.group k).state = .empty ∨ (s.group k).state = .idle ∨ (s.group k).state = .faulted) ∧
            ∀ j, s.hoistState j ≠ some .jogging
          let stands (p : Nat) := match dir with
            | .up => (∃ f ∈ h.nodeFlags, f.getLsbD 5 = true) ∨ h.upper * 10 ≤ p
            | .down => (∃ f ∈ h.nodeFlags, f.getLsbD 4 = true) ∨ p ≤ h.lower * 10
          (¬ placed → run = .next (s.answering .state [])) ∧
          (placed → s.safety.permit = false → run = .next (s.answering .noPower [])) ∧
          (placed → s.safety.permit = true → h.height = none → run = .next (s.answering .notReady [])) ∧
          ∀ p, placed → s.safety.permit = true → h.height = some p →
            (stands p → run = .next (s.answering .limit [])) ∧
            (¬ stands p →
              run = .next (State.answering
                { s.withRecord i { h with
                    state := .jogging
                    demand := h.jogDemand
                    direction := match dir with
                      | .up => .up
                      | .down => .down
                    jogStart := some p
                    jogDistance := some distance.toNat } with
                  safety := { s.safety with jogSlot := some i, jogTimer := some 300000 } } .ok []))

/-- PERMIT sets the permit latch, and with it MAINS_EN, while ESTOP_N is released, and is refused while it is asserted;
it changes nothing else (R136). -/
def Obligations.PermitAssertsMainsEn : Prop :=
  ∀ s : State, s.port.phase = .command →
    (s.safety.estopAsserted = true → exec .permit s = .next (s.answering .state [])) ∧
    (s.safety.estopAsserted = false →
      exec .permit s = .next (State.answering { s with safety := { s.safety with permit := true } } .ok []) ∧
      (State.answering { s with safety := { s.safety with permit := true } } .ok []).mainsEn = true)

/-- RESTART of a quiet part: history is cleared in every block, the rig is kept, and each group posts the fault of its
lowest slot with a stop-class condition current (R26, R52, R120, R121, R138, R161, R179); otherwise it is refused. -/
def Obligations.RestartClearsHistory : Prop :=
  ∀ s : State, s.port.phase = .command →
    (¬ s.Quiet → exec .restart s = .next (s.answering .state [])) ∧
    (s.Quiet → ∃ t, exec .restart s = .next t ∧
      (∀ i, t.slot i = { s.slot i with
        attention := false
        record := (s.record i).map fun h => { h with accrued := [], baseline := none } }) ∧
      (∀ k,
        let posted : Option PendingFault := (List.finRange 32).findSome? fun i => (s.record i).bind fun h =>
          if h.group = some k then
            (Cond.all.find? fun c => decide (c ∈ h.current ∧ c.condClass = .stop)).map fun c => ⟨c, i, h.causeValue c⟩
          else none
        t.group k = { s.group k with
          state := if (s.group k).members = [] then .empty else .idle
          queue := []
          stagedSpeed := none
          stagedTarget := none
          stopCause := none
          firstFault := none
          pendingFault := posted
          holdLost := false
          stopTime := false
          retargetLate := false
          residue := 0
          refSpeed := 0
          settleRemaining := 0
          attention := posted.isSome
          stepTimer := none
          holdTimer := none
          landingTimer := none
          stopTimer := none }) ∧
      t.safety = { s.safety with estopSeen := false, estopCleared := false, lastJogEnd := none } ∧
      t.port = { s.port.answered .ok [] with cursorBlock := .hoistStatus, cursorStart := 0, firstLook := false } ∧
      t.nodeMap = s.nodeMap ∧ t.link = s.link ∧ t.eventsWaiting = s.eventsWaiting ∧ t.pending = s.pending ∧ t.now = s.now ∧
      t.freeCount = s.freeCount)

/-- An ESTOP_N assertion: the power goes, ESTOP_SEEN is set, every moving or jogging record holds demand 0, a jog ends with
JEND_ESTOP, and then DLC and GENG take it, in one order or the other (R78, R133, R134, log 4); or, while a reply is
arriving, they take it after that reply, or after less (R185, log 26). A line that is low already has no such edge (log
5). -/
def Obligations.EstopAssertionCutsPower : Prop :=
  (∀ s : State, s.safety.estopAsserted = true → exec .estopAssertion s = .next s.repace) ∧
  (∀ s : State, s.safety.estopWaiting = true → ∃ linkFirst : Bool,
    let w : State := { s with safety := { s.safety with estopWaiting := false } }
    s.deliverWaiting =
      { (if linkFirst then w.estopLink.estopGroups else w.estopGroups.estopLink) with freeCount := s.freeCount + 1 }) ∧
  ∀ s : State, s.safety.estopAsserted = false → ∃ (u : State) (linkFirst : Bool),
    (exec .estopAssertion s = .next (State.repace
        { (if linkFirst then u.estopLink.estopGroups else u.estopGroups.estopLink) with freeCount := s.freeCount + 1 }) ∨
      (∃ p early, s.link.poll = some p ∧ p.stage = .receiving early) ∧
        exec .estopAssertion s = .next (State.repace
          { u with safety := { u.safety with estopWaiting := true }, freeCount := s.freeCount + 1 })) ∧
    u = { s with
      slots := u.slots
      safety := { s.safety with
        estopAsserted := true
        permit := false
        estopSeen := true
        jogSlot := none
        jogTimer := if s.safety.jogSlot = none then s.safety.jogTimer else none
        lastJogEnd := match s.safety.jogSlot with
          | some i => some ⟨i, .estop⟩
          | none => s.safety.lastJogEnd } } ∧
    u.mainsEn = false ∧
    ∀ i,
      let cut := (s.record i).map fun h =>
        if h.state = .moving ∨ h.state = .jogging then { h with demand := 0, direction := .none } else h
      u.slot i =
        if s.safety.jogSlot = some i then
          { s.slot i with
            attention := true
            record := cut.map fun h =>
              if h.state = .jogging then { h with state := .stopping, jogStart := none, jogDistance := none } else h }
        else { s.slot i with record := cut }

/-- DLC takes the E-stop: a HALT_ALL being sent is sent to its end and no other is owed for it; otherwise one is owed unless
DLC is STOPPED, and an open poll is aborted with no miss, its slot the last polled one. A poll being sent stops after its
byte in progress, a poll waiting for its reply leaves the line quiet, and a reply being received is discarded. Where no
listed slot lies above the poll's, the round completes (R144, R155). Three clauses are the model's: the poll is closed, and
the round completed, at the assertion itself, and no HALT_ALL is owed with an empty list (DEDUCED, log 12); the byte in
progress is found from the time left of the frame, modulo 20 µs, a byte's end counting for the byte that begins there
(DEDUCED, log 24); and one that is owed already stays the only one (DESIGN CHOICE, log 28). -/
def Obligations.EstopAbortsPoll : Prop :=
  ∀ s : State,
    (∀ left, s.link.line = .sendingHalt left → s.estopLink = s) ∧
    ((∀ left, s.link.line ≠ .sendingHalt left) → s.link.poll = none →
      s.estopLink =
        { s with link := { s.link with haltOwed := if s.link.round = .stopped then s.link.haltOwed else true } }) ∧
    ∀ (p : PollInFlight) (line : LineActivity), (∀ left, s.link.line ≠ .sendingHalt left) → s.link.poll = some p →
      s.link.round = .inRound →
      ((∃ bytes left, p.stage = .sending ∧ s.link.line = .sendingPoll bytes left ∧
          line = .cutPoll (bytes.getD ((bytes.length * 20 - left) / 20) 0)
            (if left % 20 = 0 then min left 20 else left % 20)) ∨
        (∃ left, p.stage = .awaiting left ∧ line = .quiet) ∨
        ∃ early, p.stage = .receiving early ∧ line = .discarding) →
      let a : State := { s with link := { s.link with poll := none, lastPolled := some p.slot, line := line } }
      ((∃ j ∈ s.link.pollList, p.slot < j) → s.estopLink = { a with link := { a.link with haltOwed := true } }) ∧
      ((∀ j ∈ s.link.pollList, j ≤ p.slot) →
        s.estopLink = { a.roundCompleted with link := { a.roundCompleted.link with
          haltOwed := decide (s.link.pollList ≠ []) } })

/-- GENG takes the E-stop: each group acts by its own state (R115). The premise that each member set holds the slots naming
the group keeps one group's stop from another's members. The members of a moving group that move are stopped (R15), and every other
slot and everything else is as before. -/
def Obligations.EstopActsOnEveryGroup : Prop :=
  ∀ s : State, s.MembersOk → s.estopGroups = { s with slots := s.estopGroups.slots, groups := s.estopGroups.groups } ∧
    (∀ i, (∀ k, (s.group k).state = .moving → i ∉ (s.group k).members) → s.estopGroups.slot i = s.slot i) ∧
    (∀ k, (s.group k).state = .moving → ∀ i ∈ (s.group k).members, s.estopGroups.slot i =
      { s.slot i with record := (s.record i).map fun h =>
          if h.state = .moving then
            { h with state := .stopping, demand := 0, direction := .none, deviation := none, landed := false }
          else h }) ∧
    ∀ k,
    let g := s.group k
    let first : FirstFault := ⟨.estop, none, none, g.reference⟩
    s.estopGroups.group k =
      match g.state with
      | .moving => (s.enterStopping k (.fault .estop) none none).group k
      | .armed | .settling =>
        { g with
          state := .faulted
          stopCause := some (.fault .estop)
          firstFault := some first
          attention := true
          stepTimer := none
          holdTimer := none
          landingTimer := none
          stopTimer := none }
      | .stopping =>
        match g.stopCause with
        | some (.fault _) => g
        | _ => { g with stopCause := some (.fault .estop), firstFault := some first }
      | .idle | .faulted | .empty => g

/-- An ESTOP_N release sets ESTOP_CLEARED and changes nothing else but the level: the power stays away and no group leaves
its state (R135). An assertion that still waits is delivered before it (log 26). -/
def Obligations.EstopReleaseKeepsPowerOff : Prop :=
  ∀ s : State, s.safety.estopAsserted = true →
    let u := s.deliverWaiting
    (s.safety.estopWaiting = false → u = s) ∧
    exec .estopRelease s = .next (State.repace
      { u with safety := { u.safety with estopAsserted := false, estopCleared := true } }) ∧
    u.safety.permit = s.safety.permit

/-- The cue lines: a rise starts every armed group whose head cue names the line, and only those, a fall takes the hold from
every group that moves on it, and only those, each with its own members; every other slot and everything else is as before
(R43, R125, R128). The member sets are those of R31. An assertion that waits is delivered before the edge (log 26). -/
def Obligations.CueEdgesStartAndStop : Prop :=
  ∀ (s : State) (line : CueLine),
    let level : Bool := match line with
      | .cue0 => s.safety.cue0
      | .cue1 => s.safety.cue1
    let put (high : Bool) : Safety := match line with
      | .cue0 => { s.safety with estopWaiting := false, cue0 := high }
      | .cue1 => { s.safety with estopWaiting := false, cue1 := high }
    let source : StartSource := match line with
      | .cue0 => .cue0
      | .cue1 => .cue1
    let holds : HoldSource := match line with
      | .cue0 => .line0
      | .cue1 => .line1
    let u := s.deliverWaiting
    s.MembersOk → (s.safety.estopWaiting = false → u = s) ∧
    (level = false → ∃ t, exec (.cueRisingEdge line) s = .next (State.repace t) ∧
      let w : State := { u with safety := put true }
      w.ActedOn t (fun k => (w.group k).state = .armed ∧ (w.group k).queue.head?.map (·.source) = some source)
        w.startMove) ∧
    (level = true → ∃ t, exec (.cueFallingEdge line) s = .next (State.repace t) ∧
      let w : State := { u with safety := put false }
      w.ActedOn t (fun k => (w.group k).state = .moving ∧ (w.group k).holdSource = some holds) fun k =>
        (w.enterStopping k .holdLost none none).withGroup k
          { (w.enterStopping k .holdLost none none).group k with holdLost := true, attention := true })

/-! ### Timers -/

/-- A step of the profile with nothing staged: the braking test, the new speed, the advance with its residue, and the
arrival or the move (R57 to R61). -/
def Obligations.StepAdvancesReference : Prop :=
  ∀ (s : State) (k : GroupId) (dir : Travel) (reference : Int) (cue : Cue) (rest : List Cue) (cruise : Nat),
    (s.group k).stepTimer ≠ none → (s.group k).direction = some dir → (s.group k).reference = some reference →
    (s.group k).queue = cue :: rest → (s.group k).cruise = some cruise → (s.group k).stagedTarget = none →
    let g := s.group k
    let target := (cue.target : Int) * 1000
    let remaining := (target - reference).natAbs
    let braking := g.refSpeed * g.refSpeed / (2000 * cue.accel)
    let floor := min 5000 cruise
    let change := cue.accel * g.settings.stepPeriod
    let speed := if remaining ≤ braking then max (g.refSpeed - change) floor else min (g.refSpeed + change) cruise
    let total := speed * g.settings.stepPeriod + g.residue
    (remaining ≤ total / 1000 →
      exec (.stepTimerExpiry k) s = .next (State.repace (s.withGroup k { g with
        reference := some target
        refSpeed := 0
        residue := 0
        arrived := true
        stepTimer := none
        landingTimer := some (g.settings.landingTimeout * 1000) }))) ∧
    (total / 1000 < remaining →
      exec (.stepTimerExpiry k) s = .next (State.repace (s.withGroup k { g with
        reference := some (match dir with
          | .up => reference + (total / 1000 : Nat)
          | .down => reference - (total / 1000 : Nat))
        refSpeed := speed
        residue := total % 1000
        stepTimer := some (g.settings.stepPeriod * 1000) })))

/-- A step with a staged target is the step after the latch: a target strictly ahead of the reference replaces the head
cue's, with a staged speed; one that is not ahead is discarded late, with RETARGET_LATE and attention (R63 to R65). -/
def Obligations.StepLatchesOrDiscards : Prop :=
  ∀ (s : State) (k : GroupId) (dir : Travel) (reference : Int) (cue : Cue) (rest : List Cue) (target : Nat),
    (s.group k).stepTimer ≠ none → (s.group k).direction = some dir → (s.group k).reference = some reference →
    (s.group k).queue = cue :: rest → (s.group k).stagedTarget = some target →
    let g := s.group k
    let ahead := match dir with
      | .up => reference < (target : Int) * 1000
      | .down => (target : Int) * 1000 < reference
    let latched : Group := { g with queue := { cue with target := target } :: rest, stagedTarget := none }
    (ahead → g.stagedSpeed = none →
      exec (.stepTimerExpiry k) s = exec (.stepTimerExpiry k) (s.withGroup k latched)) ∧
    (∀ v slowest, ahead → g.stagedSpeed = some v → s.SlowestMember k slowest →
      exec (.stepTimerExpiry k) s = exec (.stepTimerExpiry k) (s.withGroup k { latched with
        stagedSpeed := none
        cruise := some (v * 1000)
        cruiseLimited := decide (v = slowest)
        refSpeed := min g.refSpeed (v * 1000) })) ∧
    (¬ ahead →
      exec (.stepTimerExpiry k) s = exec (.stepTimerExpiry k) (s.withGroup k { g with
        stagedSpeed := none, stagedTarget := none, retargetLate := true, attention := true }))

/-- The other timers of a group: the hold timer's expiry stops the move with STOP_HOLDLOST and sets HOLDLOST and attention,
the landing timer's stops it with COND_LANDTIME and the lowest unlanded member, and the stop timer's ends the stop in
GST_FAULTED, with COND_STOPTIME where no first-fault record stands (R85, R114, R127). Where every member has landed, the
last one's landed event, which waits, is taken before the landing timer's expiry, which is not taken once the group has
left GST_MOVING (R85, log 27). -/
def Obligations.GroupTimersExpire : Prop :=
  ∀ (s : State) (k : GroupId),
    let g := s.group k
    (g.holdTimer ≠ none →
      exec (.holdTimerExpiry k) s = .next (State.repace
        ((s.enterStopping k .holdLost none none).withGroup k
          { (s.enterStopping k .holdLost none none).group k with holdLost := true, attention := true }))) ∧
    (∀ (before later : List Slot) (i : Slot) (h : Hoist), g.landingTimer ≠ none → g.members = before ++ i :: later →
      (∀ j ∈ before, ∀ r ∈ s.record j, r.landed = true) → s.record i = some h → h.landed = false →
      exec (.landingTimerExpiry k) s =
        .next (State.repace (s.enterStopping k (.fault .landTime) (some i) h.deviation))) ∧
    (g.landingTimer ≠ none → s.MembersAll k (fun h => h.state = .moving ∧ h.landed = true) →
      (s.deliverEvents.group k).landingTimer = none →
      exec (.landingTimerExpiry k) s = .next (State.repace s.deliverEvents)) ∧
    (∀ (before later : List Slot) (i : Slot) (h : Hoist), g.stopTimer ≠ none → g.members = before ++ i :: later →
      (∀ j ∈ before, ∀ r ∈ s.record j, r.state ≠ .stopping) → s.record i = some h → h.state = .stopping →
      exec (.stopTimerExpiry k) s = .next (State.repace (s.withGroup k { g with
        state := .faulted
        stopCause := if g.firstFault = none then some (.fault .stopTime) else g.stopCause
        firstFault := if g.firstFault = none then some ⟨.stopTime, some i, none, g.reference⟩ else g.firstFault
        stopTime := true
        attention := true
        stepTimer := none
        holdTimer := none
        landingTimer := none
        stopTimer := none })))

/-! ### The drive link -/

/-- LINKCFG of a quiet part: three settings put into their ranges, the times rounded down to tens. A lowered threshold loses
each HST_READY record whose count is above it, whole as R19 gives, all that is then current being accrued as R104 has every
write (that R26 and R101 do not set this aside is DEDUCED, log 9), and any changed one becomes the count of a HST_LOST
record; an idle group with no pending fault posts the loss of its lowest lost slot with the new count, and every other
slot and group and everything else is as before (R19, R104, R109, R157, R158). Otherwise it is refused. -/
def Obligations.LinkcfgWritesSettings : Prop :=
  ∀ (s : State) (timeout : BitVec 16) (threshold : Byte) (idle : BitVec 16), s.port.phase = .command →
    let run := exec (.linkcfg timeout threshold idle) s
    let wait := intoRange 50 1000 timeout.toNat - intoRange 50 1000 timeout.toNat % 10
    let new := intoRange 1 7 threshold.toNat
    let pause := intoRange 50 500 idle.toNat - intoRange 50 500 idle.toNat % 10
    let old := s.link.lossThreshold
    let lost (h : Hoist) : Prop := h.state = .ready ∧ new < old ∧ new < h.missCount
    (¬ s.Quiet → run = .next (s.answering .state [])) ∧
    (s.Quiet → ∃ t, run = .next t ∧
      t = { s with
        slots := t.slots
        groups := t.groups
        link := { s.link with responseTimeout := wait, lossThreshold := new, idleInterval := pause }
        port := s.port.answered
          (if wait = timeout.toNat ∧ new = threshold.toNat ∧ pause = idle.toNat then .ok else .clamped) [] } ∧
      (∀ i, s.record i = none → t.slot i = s.slot i) ∧
      (∀ (i : Slot) (h : Hoist), s.record i = some h →
        (lost h → t.slot i = { s.slot i with
          attention := true
          record := some { h with
            state := .lost
            demand := 0
            direction := .none
            deviation := none
            jogStart := none
            jogDistance := none
            landed := false
            missCount := new
            current := h.current.add .lost
            accrued := h.accrued.union (h.current.add .lost) } }) ∧
        (h.state = .lost → new ≠ old → t.slot i = { s.slot i with record := some { h with missCount := new } }) ∧
        (¬ lost h → ¬ (h.state = .lost ∧ new ≠ old) → t.slot i = s.slot i)) ∧
      ∀ k,
        ((∀ i, ∀ h ∈ s.record i, lost h → h.group ≠ some k) → t.group k = s.group k) ∧
        ∀ (i : Slot) (h : Hoist), s.record i = some h → lost h → h.group = some k →
          (∀ j, j < i → ∀ r ∈ s.record j, lost r → r.group ≠ some k) →
          ((s.group k).state = .idle → (s.group k).pendingFault = none →
            t.group k = { s.group k with pendingFault := some ⟨.lost, i, some (new : Int)⟩, attention := true }) ∧
          ((s.group k).state ≠ .idle ∨ (s.group k).pendingFault ≠ none → t.group k = s.group k))

/-- ROUND_START of an awaited round, and HALT_ALL. A round starts with the last polled slot absent and its start time
recorded; while ESTOP_N is asserted its first frame is HALT_ALL, the three bytes that begin with 0xBF. HALT_ALL is sent
when it is owed and no exchange is open (R144, R155, R156, R184). -/
def Obligations.RoundStartsAndHaltAll : Prop :=
  (∀ (s : State) (pace : Pace), s.link.round = .between pace → s.link.haltOwed = false → s.link.poll = none →
    s.link.line ≠ .discarding →
    exec .roundStart s = .next
      { s with link := { s.link with
        round := .inRound
        lastPolled := none
        roundStart := some s.now
        haltOwed := false
        line := if s.safety.estopAsserted then .sendingHalt 60 else s.link.line } }) ∧
  (∀ s : State, s.link.haltOwed = true → s.link.poll = none → s.link.line ≠ .discarding →
    exec .haltAll s = .next (State.repace
      { s with link := { s.link with haltOwed := false, line := .sendingHalt 60 } })) ∧
  haltAllBytes = [0xBF, hiByte (crc16 [0xBF]), loByte (crc16 [0xBF])]

/-- POLL of the next listed slot: its sequence bit is toggled, the frame is formed from the record as it stands, and the
poll in flight is opened. An admitting record gets POLL_IDENT, any other POLL_RUN with its direction, brake release,
sequence bit and demand (R2, R144, R148, R184). While a frame is sent LINK_DE is asserted, and LINK_TX carries its bytes one
after another: for each a start bit, the data bits least significant first and a stop bit, 2 µs a bit (R140), and so the byte in
progress of a poll that an E-stop cuts goes on to its end (R155, log 24); at all other times LINK_DE is deasserted (R140).
That a start bit is low and a stop bit high, and that LINK_TX has no level while LINK_DE is deasserted, is PRESUMED (log 30).
Events of the reply before the poll that wait are taken first (log 27). -/
def Obligations.PollFormsFrame : Prop :=
  (∀ (s : State) (bytes : List Byte) (n m r : Nat), n < bytes.length → m < 10 → r < 2 →
    let left := (bytes.length - n) * 20 - (2 * m + r)
    s.link.line = .sendingPoll bytes left ∨ bytes = haltAllBytes ∧ s.link.line = .sendingHalt left →
    s.linkDe = true ∧
      s.linkTx = some (if m = 0 then false else if m = 9 then true else (bytes.getD n 0).getLsbD (m - 1))) ∧
  (∀ (s : State) (b : Byte) (m r : Nat), m < 10 → r < 2 → s.link.line = .cutPoll b (20 - (2 * m + r)) →
    s.linkDe = true ∧ s.linkTx = some (if m = 0 then false else if m = 9 then true else b.getLsbD (m - 1))) ∧
  (∀ s : State, s.link.line = .quiet ∨ s.link.line = .discarding → s.linkDe = false ∧ s.linkTx = none) ∧
  ∀ (s : State) (i : Slot) (h : Hoist) (before later : List Slot), s.link.round = .inRound → s.link.haltOwed = false →
    s.link.poll = none → s.link.line ≠ .discarding → s.link.pollList = before ++ i :: later →
    (∀ j ∈ before, ∃ l ∈ s.link.lastPolled, j ≤ l) → (∀ l ∈ s.link.lastPolled, l < i) →
    let u := s.deliverEvents
    (s.eventsWaiting = none → u = s) ∧ (u.record i = some h → h.address < 64 →
    let seq := !h.seqBit
    let address := BitVec.ofNat 8 h.address
    let control : Byte := BitVec.ofNat 8 ((match h.direction with | .none => 0 | .up => 1 | .down => 2) +
      (if 0 < h.demand then 4 else 0) + (if seq then 128 else 0))
    let body : List Byte :=
      if h.state = .admitting then [address + 0x40, if seq then 0x80 else 0]
      else [address, control, BitVec.ofNat 8 (h.demand / 256), BitVec.ofNat 8 h.demand]
    exec .poll s = .next (State.repace
      { u.withRecord i { h with seqBit := seq } with
        link := { s.link with
          poll := some {
            slot := i
            frame := if h.state = .admitting then .ident else .run
            seqBit := seq
            orphaned := false
            timeout := s.link.responseTimeout
            stage := .sending }
          line := .sendingPoll (body ++ [hiByte (crc16 body), loByte (crc16 body)]) ((body.length + 2) * 20) } }))

/-- The end of a poll starts the response timer with the timeout in force when it began; a start bit up to the timeout
stops it, and one before 10 µs is early (R149, R159). A start bit later than the timeout is taken as the expiry (DEDUCED, log
13), and one with no poll open, as after an abort, changes nothing (R149, R155; that it moves no frame gap is a DESIGN CHOICE,
log 31). -/
def Obligations.ReplyWindowOpens : Prop :=
  (∀ (s : State) (p : PollInFlight), s.link.poll = some p → p.stage = .sending →
    exec .endOfPoll s = .next (State.repace
      { s with link := { s.link with poll := some { p with stage := .awaiting p.timeout }, line := .quiet, gap := 0, lineGap := 30 } })) ∧
  (∀ (s : State) (elapsed : Nat), s.link.poll = none →
    exec (.replyFirstStartBit elapsed) s = .next (State.repace s)) ∧
  ∀ (s : State) (p : PollInFlight) (left elapsed : Nat), s.link.poll = some p → p.stage = .awaiting left →
    (elapsed ≤ p.timeout →
      exec (.replyFirstStartBit elapsed) s = .next (State.repace
        { s with link := { s.link with poll := some { p with stage := .receiving (decide (elapsed < 10)) } } })) ∧
    (p.timeout < elapsed → exec (.replyFirstStartBit elapsed) s = exec .responseTimerExpiry s)

/-- A valid STATUS reply is taken for the polled record and ends the poll; it writes the reported fields with the load read
as R89 gives, sets the miss count to 0, and makes the transition of R13: from HST_STOPPING with BRAKE set and RUN clear,
from HST_LOST, and from HST_RETIRING with BRAKE set, which completes the retirement and, but for the slot, its address and its
place in the poll list, leaves everything as before. Outside a jog and a retirement it changes no map, link, line or port,
of the other slots at most moving ones that its group stops or completes and ready ones that a chained start moves, and
without a group nothing but its own slot. A record that stays in its slot is then evaluated in its new state, the stopped
event with it (R4, R13, R17, R20, R23, R71, R103, R151, R152). An assertion that waits is delivered after the reply (log
26). The removal of COND_LINKERR accrues what stays in the set, with attention for what was not there, as R104 has every
write (that R26 does not set this aside is DEDUCED, log 9). -/
def Obligations.StatusReplyTaken : Prop :=
  (∀ (s : State) (p : PollInFlight) (h : Hoist) (flags echo : Byte) (height : BitVec 24) (load : BitVec 16)
      (address : BitVec 6),
    s.link.poll = some p → p.stage = .receiving false → p.orphaned = false → p.frame = .run →
    s.record p.slot = some h → h.state ≠ .admitting → address.toNat = h.address → echo.getLsbD 7 = p.seqBit →
    height.toNat ≤ 500000 →
    let body : List Byte := [(0#2) ++ address, flags, height.extractLsb' 16 8, height.extractLsb' 8 8,
      height.extractLsb' 0 8, load.extractLsb' 8 8, load.extractLsb' 0 8, echo]
    exec (.statusReply address flags height load echo (crc16 body)) s =
      .next (State.repace ((s.takeStatus p.slot flags height.toNat load.toNat).endPoll p.slot 30).deliverWaiting)) ∧
  ∀ (s : State) (i : Slot) (h : Hoist) (flags : Byte) (height load : Nat), s.record i = some h →
    let t := s.takeStatus i flags height load
    let still := flags.getLsbD 7 = true ∧ flags.getLsbD 6 = false
    let left := h.current.remove .linkErr
    (h.state = .retiring → flags.getLsbD 7 = true →
      t = s.slotReleasedNoted i h .retired ∧ t.slot i = ⟨none, .retired, some h.address, true⟩) ∧
    (¬ (h.state = .retiring ∧ flags.getLsbD 7 = true) →
      t = (s.setSlot i { s.slot i with
        attention := decide ((s.slot i).attention = true ∨
          ∃ c ∈ left, (c.condClass = .stop ∨ c.condClass = .maskable) ∧ c ∉ h.accrued)
        record := some { h with
        state := match h.state with
          | .stopping => if still then .ready else .stopping
          | .lost => if ∃ k ∈ h.group, (s.group k).state = .stopping then .stopping else .ready
          | other => other
        nodeFlags := some flags
        height := some height
        load := if load ≤ 8190 then some load else if load = 65535 then none else some 8191
        missCount := 0
        current := if h.state = .lost then left.remove .lost else left
        accrued := h.accrued.union left } }).evaluate
          i (decide (h.state = .stopping ∧ still))) ∧
    (¬ (h.state = .retiring ∧ flags.getLsbD 7 = true) → ∃ r, t.record i = some r ∧
      r.nodeFlags = some flags ∧ r.height = some height ∧
      r.load = (if load ≤ 8190 then some load else if load = 65535 then none else some 8191) ∧ r.missCount = 0 ∧
      r.lastMiss = h.lastMiss ∧ r.seqBit = h.seqBit ∧ r.address = h.address ∧ r.group = h.group ∧
      (h.state = .stopping → r.state = if still then .ready else .stopping) ∧
      (h.state = .ready → r.state = .ready) ∧ (h.state = .retiring → r.state = .retiring) ∧
      (h.state = .lost →
        r.state = if ∃ k ∈ h.group, (s.group k).state = .stopping then .stopping else .ready)) ∧
    (h.state ≠ .retiring → h.state ≠ .jogging →
      t.nodeMap = s.nodeMap ∧ t.link = s.link ∧ t.safety = s.safety ∧ t.port = s.port ∧
      (h.group = none → t = s.setSlot i (t.slot i)) ∧
      ∀ j, j ≠ i → (∀ r ∈ s.record j, r.state ≠ .moving ∧ r.state ≠ .ready) → t.slot j = s.slot j)

/-- A valid IDENT reply completes the admission with the rated values, or fails it if one is out of range: the record leaves its
slot, its address the map and its slot the poll list; the poll ends, and everything else is as before (R10, R143, R151). An
assertion that waits is delivered after the reply (log 26), and the removal of COND_LINKERR accrues what stays in the set, as
R104 has every write (DEDUCED, log 9). -/
def Obligations.IdentReplyAdmits : Prop :=
  ∀ (s : State) (p : PollInFlight) (h : Hoist) (flags : Byte) (ratedLoad ratedSpeed : BitVec 16) (address : BitVec 6),
    s.link.poll = some p → p.stage = .receiving false → p.orphaned = false → p.frame = .ident →
    s.record p.slot = some h → h.state = .admitting → address.toNat = h.address →
    let body : List Byte := [(1#2) ++ address, flags, ratedLoad.extractLsb' 8 8, ratedLoad.extractLsb' 0 8,
      ratedSpeed.extractLsb' 8 8, ratedSpeed.extractLsb' 0 8]
    let run := exec (.identReply address flags ratedLoad ratedSpeed (crc16 body)) s
    let good := 125 ≤ ratedLoad.toNat ∧ ratedLoad.toNat ≤ 2000 ∧ 10 ≤ ratedSpeed.toNat ∧ ratedSpeed.toNat ≤ 300
    (good → run = .next (State.repace (State.deliverWaiting (State.endPoll
      (s.setSlot p.slot { s.slot p.slot with
        attention := true
        record := some { h with
          state := .ready
          nodeFlags := some flags
          ratedLoad := some ratedLoad.toNat
          ratedSpeed := some ratedSpeed.toNat
          missCount := 0
          current := h.current.remove .linkErr
          accrued := h.accrued.union (h.current.remove .linkErr) } }) p.slot 30)))) ∧
    (¬ good → run = .next (State.repace (State.deliverWaiting
      (State.endPoll (s.slotReleasedNoted p.slot h .admitRefused) p.slot 30)))) ∧
    (¬ good → ∃ t, run = .next t ∧ t.slot p.slot = ⟨none, .admitRefused, some h.address, true⟩ ∧
      t.nodeMap = (s.nodeMap.filter fun e => decide (e.1 ≠ h.address)) ∧
      t.link.pollList = s.link.pollList.filter fun j => decide (j ≠ p.slot))

/-- A poll without a valid reply: the response timer's expiry is MISS_TIMEOUT, a frame that a gap ended early MISS_LENGTH, a
frame of its whole length the miss of the first check that fails, in the order early start bit, CRC, address, kind and,
for a STATUS reply, sequence bit and height; and an orphaned poll ends by its timeout or by any frame with nothing written
(R149, R151, R153). The frame gap before a HALT_ALL counts from the last byte on the line (R155, log 29), and an assertion
that waits is delivered after the frame (log 26). With no poll open a frame is discarded: the rest of the reply that an E-stop
aborted ends by any frame, and leaves the line quiet for the frame gap after its last byte, 30 µs or, after a byte gap, none
(R149, R155; that every frame then counts from that byte is DEDUCED, log 29); any other frame changes nothing (R149). -/
def Obligations.PollsEndWithoutReply : Prop :=
  (∀ (s : State) (p : PollInFlight), s.link.poll = some p →
    let ended (t : State) (rest : Nat) : Host.Outcome State Fault Refusal :=
      .next (State.repace (t.endPoll p.slot rest).deliverWaiting)
    (∀ left, p.stage = .awaiting left → p.orphaned = false →
      exec .responseTimerExpiry s = .next (State.repace ((s.miss p.slot .timeout).endPoll p.slot (30 - p.timeout)))) ∧
    (∀ (early : Bool) (h : Hoist) (address : BitVec 6) (flags echo : Byte) (height : BitVec 24)
        (load crc ratedLoad ratedSpeed : BitVec 16),
      p.stage = .receiving early → p.orphaned = false → s.record p.slot = some h →
      let status := exec (.statusReply address flags height load echo crc) s
      let ident := exec (.identReply address flags ratedLoad ratedSpeed crc) s
      let statusBody : List Byte := [(0#2) ++ address, flags, height.extractLsb' 16 8, height.extractLsb' 8 8,
        height.extractLsb' 0 8, load.extractLsb' 8 8, load.extractLsb' 0 8, echo]
      let identBody : List Byte := [(1#2) ++ address, flags, ratedLoad.extractLsb' 8 8, ratedLoad.extractLsb' 0 8,
        ratedSpeed.extractLsb' 8 8, ratedSpeed.extractLsb' 0 8]
      (early = true → status = ended (s.miss p.slot .early) 30 ∧ ident = ended (s.miss p.slot .early) 30) ∧
      (early = false →
        (crc ≠ crc16 statusBody → status = ended (s.miss p.slot .crc) 30) ∧
        (crc ≠ crc16 identBody → ident = ended (s.miss p.slot .crc) 30) ∧
        (address.toNat ≠ h.address →
          (crc = crc16 statusBody → status = ended (s.miss p.slot .address) 30) ∧
          (crc = crc16 identBody → ident = ended (s.miss p.slot .address) 30)) ∧
        (address.toNat = h.address →
          (crc = crc16 identBody → p.frame = .run → ident = ended (s.miss p.slot .kind) 30) ∧
          (crc = crc16 statusBody → p.frame = .ident → status = ended (s.miss p.slot .kind) 30) ∧
          (crc = crc16 statusBody → p.frame = .run →
            (echo.getLsbD 7 ≠ p.seqBit → status = ended (s.miss p.slot .stale) 30) ∧
            (echo.getLsbD 7 = p.seqBit → 500000 < height.toNat → status = ended (s.miss p.slot .range) 30))))) ∧
    (∀ (h : Hoist) (bytes : List Byte), p.stage = .receiving true → p.orphaned = false → s.record p.slot = some h →
      exec (.replyByteGapExpiry bytes) s = ended (s.miss p.slot .early) 0) ∧
    (∀ (h : Hoist) (head : Byte) (rest : List Byte), p.stage = .receiving false → p.orphaned = false →
      s.record p.slot = some h →
      (head.toNat < 64 ∧ rest.length < 9 ∨ 64 ≤ head.toNat ∧ head.toNat < 128 ∧ rest.length < 7 ∨ 128 ≤ head.toNat) →
      exec (.replyByteGapExpiry (head :: rest)) s = ended (s.miss p.slot .length) 0) ∧
    (∀ left, p.stage = .awaiting left → p.orphaned = true →
      exec .responseTimerExpiry s = .next (State.repace (s.endPoll p.slot (30 - p.timeout)))) ∧
    ∀ (early : Bool) (address : BitVec 6) (flags echo : Byte) (height : BitVec 24) (load crc ratedLoad ratedSpeed : BitVec 16)
      (bytes : List Byte), p.stage = .receiving early → p.orphaned = true →
      exec (.statusReply address flags height load echo crc) s = ended s 30 ∧
      exec (.identReply address flags ratedLoad ratedSpeed crc) s = ended s 30 ∧
      exec (.replyByteGapExpiry bytes) s = ended s 0) ∧
  ∀ (s : State) (address : BitVec 6) (flags echo : Byte) (height : BitVec 24) (load crc ratedLoad ratedSpeed : BitVec 16)
    (bytes : List Byte), s.link.poll = none →
    let quiet (rest : Nat) : Host.Outcome State Fault Refusal :=
      .next (State.repace { s with link := { s.link with line := .quiet, gap := rest, lineGap := rest } })
    (s.link.line = .discarding →
      exec (.statusReply address flags height load echo crc) s = quiet 30 ∧
      exec (.identReply address flags ratedLoad ratedSpeed crc) s = quiet 30 ∧
      exec (.replyByteGapExpiry bytes) s = quiet 0) ∧
    (s.link.line ≠ .discarding →
      exec (.statusReply address flags height load echo crc) s = .next (State.repace s) ∧
      exec (.identReply address flags ratedLoad ratedSpeed crc) s = .next (State.repace s) ∧
      exec (.replyByteGapExpiry bytes) s = .next (State.repace s))

/-- A miss: the reason, the count up to the threshold and COND_LINKERR, all that is then current accrued, with attention for
what was not there, as R104 has every write (that R26 and R101 do not set this aside is DEDUCED, log 9); at the
threshold an admission fails or a retirement completes, the record leaving its slot, its address the map and its slot
the poll list, with its poll orphaned and everything else as before (R143, R153); a lost record stays lost, COND_LOST
accrued afresh by its further miss, and any other record is lost, its motion fields cleared and its attention set (log
17); of the other slots a loss changes at most moving ones, which its group stops, and the jog slot. The loss reaches
the group as a loss event with the miss count, and ends the record's jog with JEND_CONDITION and COND_LOST (R11, R19,
R23, R103, R104, R109, R133, R154). -/
def Obligations.MissesCountToLoss : Prop :=
  ∀ (s : State) (i : Slot) (h : Hoist) (reason : MissReason), s.record i = some h → h.missCount ≤ s.link.lossThreshold →
    let t := s.miss i reason
    let count := min (h.missCount + 1) s.link.lossThreshold
    let met := h.current.add .linkErr
    let missed : SlotEntry := { s.slot i with
      attention := decide ((s.slot i).attention = true ∨
        ∃ c ∈ met, (c.condClass = .stop ∨ c.condClass = .maskable) ∧ c ∉ h.accrued)
      record := some { h with
        lastMiss := some reason
        missCount := count
        current := met
        accrued := h.accrued.union met } }
    (count < s.link.lossThreshold → t = s.setSlot i missed) ∧
    (count = s.link.lossThreshold →
      (h.state = .admitting → t = s.slotReleasedNoted i h .admitUnanswered ∧
        t.slot i = ⟨none, .admitUnanswered, some h.address, true⟩ ∧
        t.nodeMap = s.nodeMap.filter fun e => decide (e.1 ≠ h.address)) ∧
      (h.state = .retiring → t = s.slotReleasedNoted i h .retiredUnconfirmed ∧
        t.slot i = ⟨none, .retiredUnconfirmed, some h.address, true⟩ ∧
        t.nodeMap = s.nodeMap.filter fun e => decide (e.1 ≠ h.address)) ∧
      (h.state = .lost → t = s.setSlot i missed) ∧
      (h.state = .ready ∨ h.state = .moving ∨ h.state = .jogging ∨ h.state = .stopping →
        let u := s.setSlot i { s.slot i with
          attention := true
          record := some { h with
            state := .lost
            demand := 0
            direction := .none
            deviation := none
            jogStart := none
            jogDistance := none
            landed := false
            lastMiss := some reason
            missCount := count
            current := met.add .lost
            accrued := (h.accrued.union met).union (met.add .lost) } }
        let v := match h.group with
          | some k => u.lossEvent k i (some count)
          | none => u
        (h.state ≠ .jogging → t = v) ∧
        (h.state = .jogging → s.safety.jogSlot = some i →
          t = { v with safety :=
            { v.safety with jogSlot := none, jogTimer := none, lastJogEnd := some ⟨i, .condition .lost⟩ } }) ∧
        ∃ r, t.record i = some r ∧ r.state = .lost ∧ r.demand = 0 ∧ r.direction = .none ∧ r.deviation = none ∧
          r.jogStart = none ∧ r.jogDistance = none ∧ r.landed = false ∧ Cond.lost ∈ r.current ∧ Cond.lost ∈ r.accrued ∧
          Cond.linkErr ∈ r.current ∧ r.missCount = count ∧ r.lastMiss = some reason ∧ r.group = h.group ∧
          r.baseline = h.baseline ∧ r.height = h.height ∧ (t.slot i).attention = true ∧ t.nodeMap = s.nodeMap ∧
          t.link = s.link ∧ t.port = s.port ∧
          ∀ j, j ≠ i → s.safety.jogSlot ≠ some j → (∀ o ∈ s.record j, o.state ≠ .moving) → t.slot j = s.slot j))

/-! ### Tracking and conditions -/

/-- The evaluation of a moving member: deviation, landing, demand and direction, and every condition that its evaluation
can find, each exactly where its rule has it (R73 to R77, R79, R80, R91 to R97, R105). A record at rest is evaluated for
its node conditions and overload alone, a jogging one for its limit as well (R71, R131). The conditions found become the
current set and join the accrued set, and one of stop or maskable class that was not there sets the slot's attention
(R103, R104); then the events are handed on in their order (R81). Those of a moving member, where it raises any, wait or not
by a free value (R87, log 27). -/
def Obligations.MovingMemberEvaluated : Prop :=
  (∀ (s : State) (h : Hoist),
    let ev := s.evaluation h
    let trouble := ∃ f ∈ h.nodeFlags, f.getLsbD 3 = true ∨ f.getLsbD 2 = true ∨ f.getLsbD 1 = true
    let heavy := ∃ w ∈ h.load, w = 8191 ∨ ∃ r ∈ h.ratedLoad, r * h.overloadPct < w * 100
    (∀ k, h.state = .moving → h.group = some k → ev = h.evaluateMoving (s.group k) s.safety.permit) ∧
    (h.state = .ready ∨ h.state = .stopping ∨ h.state = .retiring →
      ev.hoist = h ∧ ∀ c, c ∈ ev.found ↔ c = .nodeFault ∧ trouble ∨ c = .overload ∧ heavy) ∧
    (h.state = .jogging →
      ev.hoist = h ∧ ∀ c, c ∈ ev.found ↔ c = .nodeFault ∧ trouble ∨ c = .overload ∧ heavy ∨ c = .limit ∧
        (h.direction = .up ∧ ((∃ f ∈ h.nodeFlags, f.getLsbD 5 = true) ∨ ∃ p ∈ h.height, h.upper * 10 ≤ p) ∨
          h.direction = .down ∧ ((∃ f ∈ h.nodeFlags, f.getLsbD 4 = true) ∨ ∃ p ∈ h.height, p ≤ h.lower * 10)))) ∧
  (∀ (s : State) (i : Slot) (h : Hoist) (stopped : Bool), s.record i = some h →
    let ev := s.evaluation h
    let accrued := h.accrued.union ev.found
    let t := s.setSlot i { s.slot i with
      attention := decide ((s.slot i).attention = true ∨
        ∃ c ∈ ev.found, (c.condClass = .stop ∨ c.condClass = .maskable) ∧ c ∉ h.accrued)
      record := some { ev.hoist with current := ev.found, accrued := accrued } }
    let hand (u : State) : State :=
      ((((u.handCondition i).handLanded h.group h.landed ev.hoist.landed).handStopped h.group stopped).jogProgress i)
    let cause (k : GroupId) := t.detected k { ev.hoist with current := ev.found, accrued := accrued }
    let newly := h.landed = false ∧ ev.hoist.landed = true
    (∀ c, c ∈ accrued ↔ c ∈ h.accrued ∨ c ∈ ev.found) ∧
    ((h.state = .moving → ∀ k, h.group = some k → cause k = none ∧ ¬ newly) → s.evaluate i stopped = hand t) ∧
    ∀ k, h.state = .moving → h.group = some k → cause k ≠ none ∨ newly →
      s.evaluate i stopped =
        if Config.eventsWait s.freeCount then
          { t with eventsWaiting := some ⟨k, i, cause k, decide newly⟩, freeCount := s.freeCount + 1 }
        else hand { t with freeCount := s.freeCount + 1 }) ∧
  ∀ (h : Hoist) (g : Group) (mainsEn : Bool) (dir : Travel) (reference : Int) (p rated : Nat), h.state = .moving →
    g.direction = some dir → g.reference = some reference → h.height = some p → h.ratedSpeed = some rated →
    let ev := h.evaluateMoving g mainsEn
    let d := (p : Int) * 100 - (reference + h.trim * 1000)
    let lead : Int := match dir with
      | .up => d
      | .down => -d
    let landed := h.landed = true ∨ g.arrived = true ∧ d.natAbs ≤ g.settings.landingTol * 1000
    let wanted := (g.refSpeed : Int) - (lead * g.settings.gain).tdiv 8
    let quotient := (wanted.toNat + rated / 2) / rated
    let driven := ¬ landed ∧ mainsEn = true
    let baseline : Option Nat := match h.deviation, h.load with
      | none, some w => if 20 ≤ w ∧ w ≤ 8190 then some w else h.baseline
      | _, _ => h.baseline
    (ev.hoist.deviation = some d ∧ (ev.hoist.landed = true ↔ landed) ∧ ev.hoist.baseline = baseline ∧
      (¬ driven ∨ wanted ≤ 0 → ev.hoist.demand = 0 ∧ ev.hoist.direction = .none) ∧
      (driven → 0 < wanted → ev.hoist.demand = intoRange 20 1000 quotient ∧
        ev.hoist.direction = match dir with
          | .up => .up
          | .down => .down) ∧
      ev.hoist = { h with
        deviation := ev.hoist.deviation
        landed := ev.hoist.landed
        demand := ev.hoist.demand
        direction := ev.hoist.direction
        baseline := ev.hoist.baseline }) ∧
    (Cond.satHigh ∈ ev.found ↔ driven ∧ 0 < wanted ∧ 1000 < quotient) ∧
    (Cond.satLow ∈ ev.found ↔ driven ∧ wanted ≤ 0 ∧ 0 < g.refSpeed) ∧
    (Cond.dev ∈ ev.found ↔ g.settings.levelTol * 1000 < d.natAbs) ∧
    (Cond.xdev ∈ ev.found ↔ 2 * g.settings.levelTol * 1000 < d.natAbs) ∧
    (Cond.limit ∈ ev.found ↔ match dir with
      | .up => (∃ f ∈ h.nodeFlags, f.getLsbD 5 = true) ∨ h.upper * 10 ≤ p
      | .down => (∃ f ∈ h.nodeFlags, f.getLsbD 4 = true) ∨ p ≤ h.lower * 10) ∧
    (Cond.nodeFault ∈ ev.found ↔ ∃ f ∈ h.nodeFlags,
      f.getLsbD 3 = true ∨ f.getLsbD 2 = true ∨ f.getLsbD 1 = true ∨ f.getLsbD 0 = false) ∧
    (Cond.overload ∈ ev.found ↔ ∃ w ∈ h.load, w = 8191 ∨ ∃ r ∈ h.ratedLoad, r * h.overloadPct < w * 100) ∧
    (Cond.loadShift ∈ ev.found ↔ ∃ w ∈ h.load, ∃ b ∈ baseline, b * h.shiftPct < ((w : Int) - b).natAbs * 100) ∧
    (Cond.underload ∈ ev.found ↔ dir = .down ∧ ∃ w ∈ h.load, ∃ b ∈ baseline, w * 100 < b * h.underloadPct) ∧
    Cond.estop ∉ ev.found ∧ Cond.lost ∉ ev.found ∧ Cond.landTime ∉ ev.found ∧ Cond.stopTime ∉ ev.found ∧
    Cond.linkErr ∉ ev.found

/-- A condition event by the state of its group: a moving group stops, an armed or settling group is faulted with a
first-fault record, an idle group posts its first fault, and any other is unchanged; a loss event also lets a stopping
group test for completion (R108 to R111). An evaluation hands its group the condition of lowest code that is stop-class or
in the stop mask, with its cause's value (R81, R98, R107); a landed event, which completes the arrival where every member
has landed (R82, R83); and a stopped event, which tests for completion (R113). Events that waited (log 27) are taken in
the state the group has come to, and a stopping group takes none of them (R81, R87); a round completion that waited behind
them follows (R84). A jog ends by its highest-priority stop-class condition, otherwise by its distance (R131, R133). -/
def Obligations.ConditionEventByGroupState : Prop :=
  (∀ (s : State) (i : Slot) (h : Hoist), s.record i = some h →
    (h.group = none → s.handCondition i = s) ∧
    ∀ k, h.group = some k →
      let mask := (s.group k).settings.stopMask
      let acts (c : Cond) : Prop := c ∈ h.current ∧ (c.condClass = .stop ∨ c = .underload ∧ mask.underload = true ∨
        c = .dev ∧ mask.dev = true ∨ c = .loadShift ∧ mask.loadShift = true)
      let value (c : Cond) : Option Int := match c with
        | .lost => some (h.missCount : Int)
        | .nodeFault => h.nodeFlags.map fun f => (f.toNat : Int)
        | .overload | .underload | .loadShift => h.load.map fun w => (w : Int)
        | .limit => h.height.map fun p => (p : Int)
        | .xdev | .dev => h.deviation
        | _ => none
      ((∀ c, ¬ acts c) → s.detected k h = none ∧ s.handCondition i = s) ∧
      ∀ c, acts c → (∀ d, acts d → c.code ≤ d.code) →
        s.detected k h = some (c, value c) ∧ s.handCondition i = s.conditionEvent k i c (value c)) ∧
  (∀ s : State,
    (s.eventsWaiting = none → s.deliverEvents = s) ∧
    ∀ e, s.eventsWaiting = some e →
      let w : State := { s with eventsWaiting := none }
      let v := match e.condition with
        | some (c, value) => w.conditionEvent e.group e.slot c value
        | none => w
      let t := v.handLanded (some e.group) false e.landed
      let done := s.link.round = .inRound ∧ s.link.poll = none ∧
        ∀ j ∈ s.link.pollList, ∃ l ∈ s.link.lastPolled, j ≤ l
      (done → s.deliverEvents = t.roundCompleted) ∧ (¬ done → s.deliverEvents = t) ∧
      ((s.group e.group).state = .stopping → t = w)) ∧
  (∀ (s : State) (k : GroupId),
    let g := s.group k
    let arrived := g.state = .moving ∧ g.arrived = true ∧ s.MembersAll k fun h => h.state = .moving ∧ h.landed = true
    (∀ before after, s.handLanded none before after = s ∧ (¬ (before = false ∧ after = true) ∨ ¬ arrived →
      s.handLanded (some k) before after = s)) ∧
    (arrived → ∃ t,
      t = { s with
        slots := t.slots
        groups := s.groups.set k { g with
          state := if g.settings.settleRounds = 0 then .idle else .settling
          queue := g.queue.tail
          settleRemaining := g.settings.settleRounds
          refSpeed := 0
          residue := 0
          stagedSpeed := none
          stagedTarget := none
          attention := decide (g.attention = true ∨ g.settings.settleRounds = 0)
          stepTimer := none
          holdTimer := none
          landingTimer := none
          stopTimer := none } } ∧
      (∀ i, t.slot i =
        if i ∈ g.members then
          { s.slot i with record := (s.record i).map fun h =>
              { h with state := .ready, demand := 0, direction := .none, deviation := none, landed := false } }
        else s.slot i) ∧
      s.handLanded (some k) false true = if g.settings.settleRounds = 0 then t.chainedStart k else t) ∧
    (s.handStopped none true = s ∧ s.handStopped (some k) false = s) ∧
    (g.state ≠ .stopping ∨ (s.SomeMember k fun h => h.state ≠ .ready ∧ h.state ≠ .lost) →
      s.handStopped (some k) true = s) ∧
    (g.state = .stopping → s.EveryMember k (fun h => h.state = .ready ∨ h.state = .lost) →
      s.handStopped (some k) true = s.withGroup k { g with
        state := match g.stopCause with
          | some (.fault _) => .faulted
          | _ => .idle
        attention := true
        stepTimer := none
        holdTimer := none
        landingTimer := none
        stopTimer := none })) ∧
  (∀ (s : State) (i : Slot) (h : Hoist), s.record i = some h →
    let stops (c : Cond) : Prop := c ∈ h.current ∧ c.condClass = .stop
    let done := ∃ p ∈ h.height, ∃ start ∈ h.jogStart, ∃ d ∈ h.jogDistance, d * 1000 ≤ ((p : Int) - start).natAbs * 100
    (h.state ≠ .jogging → s.jogProgress i = s) ∧
    (h.state = .jogging → (∀ c, ¬ stops c) → ¬ done → s.jogProgress i = s) ∧
    (h.state = .jogging → s.safety.jogSlot = some i →
      ((∀ c, ¬ stops c) → done → s.jogProgress i = s.jogEnded i h .distance) ∧
      ∀ c, stops c → (∀ d, stops d → c.code ≤ d.code) → s.jogProgress i = s.jogEnded i h (.condition c))) ∧
  ∀ (s : State) (k : GroupId) (i : Slot) (c : Cond) (value : Option Int),
    let g := s.group k
    let t := s.conditionEvent k i c value
    (g.state = .moving → t = s.enterStopping k (.fault c) (some i) value) ∧
    (g.state = .armed ∨ g.state = .settling →
      t = s.withGroup k { g with
        state := .faulted
        stopCause := some (.fault c)
        firstFault := some ⟨c, some i, value, g.reference⟩
        attention := true
        stepTimer := none
        holdTimer := none
        landingTimer := none
        stopTimer := none }) ∧
    (g.state = .idle → g.pendingFault = none →
      t = s.withGroup k { g with pendingFault := some ⟨c, i, value⟩, attention := true }) ∧
    (g.state = .idle → g.pendingFault ≠ none → t = s) ∧
    (g.state = .stopping ∨ g.state = .faulted ∨ g.state = .empty → t = s) ∧
    (g.state ≠ .stopping → s.lossEvent k i value = s.conditionEvent k i .lost value) ∧
    (g.state = .stopping → s.EveryMember k (fun h => h.state = .ready ∨ h.state = .lost) →
      s.lossEvent k i value = s.withGroup k { g with
        state := match g.stopCause with
          | some (.fault _) => .faulted
          | _ => .idle
        attention := true
        stepTimer := none
        holdTimer := none
        landingTimer := none
        stopTimer := none }) ∧
    (g.state = .stopping → s.SomeMember k (fun h => h.state ≠ .ready ∧ h.state ≠ .lost) → s.lossEvent k i value = s)

/-- The end of an exchange: the round goes on to the next listed slot, or completes: the settling groups count it, and the
next round is awaited, or DLC stops with an empty list. A settling group that counts its last round is idle with
attention and starts the groups chained after it: exactly the armed ones whose head cue is SRC_AFTER it. The pace is fast
while a group is active or a hoist jogs, stops, is admitted or retires, and a slow wait ends once it is (R46, R84, R144 to
R146, R149; the gap after the exchange's own end is DEDUCED, log 29). Where the events of the reply wait, the completion waits
behind them (R84, R152, log 27). -/
def Obligations.RoundCompletionSettles : Prop :=
  (∀ (s : State) (i : Slot) (rest : Nat),
    let ended : State := { s with link := { s.link with
      poll := none, lastPolled := some i, line := .quiet, gap := 30, lineGap := rest } }
    ((∃ j ∈ s.link.pollList, i < j) → s.endPoll i rest = ended) ∧
    ((∀ j ∈ s.link.pollList, j ≤ i) →
      (s.eventsWaiting = none → s.endPoll i rest = ended.roundCompleted) ∧
      (s.eventsWaiting ≠ none → s.endPoll i rest = ended))) ∧
  (∀ s : State,
    (s.fastCondition = true ↔
      (∃ k, (s.group k).state = .armed ∨ (s.group k).state = .moving ∨ (s.group k).state = .stopping ∨
        (s.group k).state = .settling) ∨
      ∃ i, s.hoistState i = some .jogging ∨ s.hoistState i = some .stopping ∨ s.hoistState i = some .admitting ∨
        s.hoistState i = some .retiring) ∧
    (s.link.round = .between .slow → s.fastCondition = true →
      s.repace = { s with link := { s.link with round := .between .fast } }) ∧
    (s.link.round ≠ .between .slow ∨ s.fastCondition = false → s.repace = s)) ∧
  (∀ (s : State) (j : GroupId), s.MembersOk →
    s.ActedOn (s.chainedStart j)
      (fun k => (s.group k).state = .armed ∧ (s.group k).queue.head?.map (·.source) = some (.after j)) s.startMove) ∧
  (∀ s : State, s.MembersOk →
    let t := s.settleRounds
    let started (k : GroupId) : Prop := (s.group k).state = .armed ∧ ∃ j, (s.group j).state = .settling ∧
      (s.group j).settleRemaining ≤ 1 ∧ (s.group k).queue.head?.map (·.source) = some (.after j)
    t = { s with slots := t.slots, groups := t.groups } ∧
    (∀ k, ((s.group k).state = .settling → t.group k = (s.settleRound k).group k) ∧
      (started k → t.group k = (s.startMove k).group k) ∧
      ((s.group k).state ≠ .settling → ¬ started k → t.group k = s.group k)) ∧
    ∀ i, (∀ k, started k → i ∈ (s.group k).members → t.slot i = (s.startMove k).slot i) ∧
      ((∀ k, started k → i ∉ (s.group k).members) → t.slot i = s.slot i)) ∧
  ∀ (s : State) (k : GroupId),
    ((s.group k).state ≠ .settling → s.settleRound k = s) ∧
    ((s.group k).state = .settling → 2 ≤ (s.group k).settleRemaining →
      s.settleRound k =
        s.withGroup k { s.group k with settleRemaining := (s.group k).settleRemaining - 1 }) ∧
    ((s.group k).state = .settling → (s.group k).settleRemaining = 1 →
      s.settleRound k = State.chainedStart (s.withGroup k { s.group k with
        state := .idle
        settleRemaining := 0
        attention := true
        stepTimer := none
        holdTimer := none
        landingTimer := none
        stopTimer := none }) k)
end

