-- ==== Sys2Proof/Laws/State.lean ====
section
/-! SUPPORT. One lemma for each field and each update of the state, and what the two tables hold after an update. -/

namespace Sys2Proof.Machine

variable (s : State)


/-! ### `State.setSlot` -/

@[simp] theorem State.nodeMap_setSlot (i : Slot) (e : SlotEntry) : (s.setSlot i e).nodeMap = s.nodeMap := rfl
@[simp] theorem State.groups_setSlot (i : Slot) (e : SlotEntry) : (s.setSlot i e).groups = s.groups := rfl
@[simp] theorem State.eventsWaiting_setSlot (i : Slot) (e : SlotEntry) : (s.setSlot i e).eventsWaiting = s.eventsWaiting := rfl
@[simp] theorem State.link_setSlot (i : Slot) (e : SlotEntry) : (s.setSlot i e).link = s.link := rfl
@[simp] theorem State.safety_setSlot (i : Slot) (e : SlotEntry) : (s.setSlot i e).safety = s.safety := rfl
@[simp] theorem State.port_setSlot (i : Slot) (e : SlotEntry) : (s.setSlot i e).port = s.port := rfl
@[simp] theorem State.now_setSlot (i : Slot) (e : SlotEntry) : (s.setSlot i e).now = s.now := rfl
@[simp] theorem State.freeCount_setSlot (i : Slot) (e : SlotEntry) : (s.setSlot i e).freeCount = s.freeCount := rfl
@[simp] theorem State.pending_setSlot (i : Slot) (e : SlotEntry) : (s.setSlot i e).pending = s.pending := rfl
@[simp] theorem State.group_setSlot (i : Slot) (e : SlotEntry) (j : GroupId) : (s.setSlot i e).group j = s.group j := rfl

/-! ### `State.modSlot` -/

@[simp] theorem State.nodeMap_modSlot (i : Slot) (f : SlotEntry → SlotEntry) : (s.modSlot i f).nodeMap = s.nodeMap := rfl
@[simp] theorem State.groups_modSlot (i : Slot) (f : SlotEntry → SlotEntry) : (s.modSlot i f).groups = s.groups := rfl
@[simp] theorem State.eventsWaiting_modSlot (i : Slot) (f : SlotEntry → SlotEntry) : (s.modSlot i f).eventsWaiting = s.eventsWaiting := rfl
@[simp] theorem State.link_modSlot (i : Slot) (f : SlotEntry → SlotEntry) : (s.modSlot i f).link = s.link := rfl
@[simp] theorem State.safety_modSlot (i : Slot) (f : SlotEntry → SlotEntry) : (s.modSlot i f).safety = s.safety := rfl
@[simp] theorem State.port_modSlot (i : Slot) (f : SlotEntry → SlotEntry) : (s.modSlot i f).port = s.port := rfl
@[simp] theorem State.now_modSlot (i : Slot) (f : SlotEntry → SlotEntry) : (s.modSlot i f).now = s.now := rfl
@[simp] theorem State.freeCount_modSlot (i : Slot) (f : SlotEntry → SlotEntry) : (s.modSlot i f).freeCount = s.freeCount := rfl
@[simp] theorem State.pending_modSlot (i : Slot) (f : SlotEntry → SlotEntry) : (s.modSlot i f).pending = s.pending := rfl
@[simp] theorem State.group_modSlot (i : Slot) (f : SlotEntry → SlotEntry) (j : GroupId) : (s.modSlot i f).group j = s.group j := rfl

/-! ### `State.modRecord` -/

@[simp] theorem State.nodeMap_modRecord (i : Slot) (f : Hoist → Hoist) : (s.modRecord i f).nodeMap = s.nodeMap := rfl
@[simp] theorem State.groups_modRecord (i : Slot) (f : Hoist → Hoist) : (s.modRecord i f).groups = s.groups := rfl
@[simp] theorem State.eventsWaiting_modRecord (i : Slot) (f : Hoist → Hoist) : (s.modRecord i f).eventsWaiting = s.eventsWaiting := rfl
@[simp] theorem State.link_modRecord (i : Slot) (f : Hoist → Hoist) : (s.modRecord i f).link = s.link := rfl
@[simp] theorem State.safety_modRecord (i : Slot) (f : Hoist → Hoist) : (s.modRecord i f).safety = s.safety := rfl
@[simp] theorem State.port_modRecord (i : Slot) (f : Hoist → Hoist) : (s.modRecord i f).port = s.port := rfl
@[simp] theorem State.now_modRecord (i : Slot) (f : Hoist → Hoist) : (s.modRecord i f).now = s.now := rfl
@[simp] theorem State.freeCount_modRecord (i : Slot) (f : Hoist → Hoist) : (s.modRecord i f).freeCount = s.freeCount := rfl
@[simp] theorem State.pending_modRecord (i : Slot) (f : Hoist → Hoist) : (s.modRecord i f).pending = s.pending := rfl
@[simp] theorem State.group_modRecord (i : Slot) (f : Hoist → Hoist) (j : GroupId) : (s.modRecord i f).group j = s.group j := rfl

/-! ### `State.withRecord` -/

@[simp] theorem State.nodeMap_withRecord (i : Slot) (h : Hoist) : (s.withRecord i h).nodeMap = s.nodeMap := rfl
@[simp] theorem State.groups_withRecord (i : Slot) (h : Hoist) : (s.withRecord i h).groups = s.groups := rfl
@[simp] theorem State.eventsWaiting_withRecord (i : Slot) (h : Hoist) : (s.withRecord i h).eventsWaiting = s.eventsWaiting := rfl
@[simp] theorem State.link_withRecord (i : Slot) (h : Hoist) : (s.withRecord i h).link = s.link := rfl
@[simp] theorem State.safety_withRecord (i : Slot) (h : Hoist) : (s.withRecord i h).safety = s.safety := rfl
@[simp] theorem State.port_withRecord (i : Slot) (h : Hoist) : (s.withRecord i h).port = s.port := rfl
@[simp] theorem State.now_withRecord (i : Slot) (h : Hoist) : (s.withRecord i h).now = s.now := rfl
@[simp] theorem State.freeCount_withRecord (i : Slot) (h : Hoist) : (s.withRecord i h).freeCount = s.freeCount := rfl
@[simp] theorem State.pending_withRecord (i : Slot) (h : Hoist) : (s.withRecord i h).pending = s.pending := rfl
@[simp] theorem State.group_withRecord (i : Slot) (h : Hoist) (j : GroupId) : (s.withRecord i h).group j = s.group j := rfl

/-! ### `State.slotAttention` -/

@[simp] theorem State.nodeMap_slotAttention (i : Slot) : (s.slotAttention i).nodeMap = s.nodeMap := rfl
@[simp] theorem State.groups_slotAttention (i : Slot) : (s.slotAttention i).groups = s.groups := rfl
@[simp] theorem State.eventsWaiting_slotAttention (i : Slot) : (s.slotAttention i).eventsWaiting = s.eventsWaiting := rfl
@[simp] theorem State.link_slotAttention (i : Slot) : (s.slotAttention i).link = s.link := rfl
@[simp] theorem State.safety_slotAttention (i : Slot) : (s.slotAttention i).safety = s.safety := rfl
@[simp] theorem State.port_slotAttention (i : Slot) : (s.slotAttention i).port = s.port := rfl
@[simp] theorem State.now_slotAttention (i : Slot) : (s.slotAttention i).now = s.now := rfl
@[simp] theorem State.freeCount_slotAttention (i : Slot) : (s.slotAttention i).freeCount = s.freeCount := rfl
@[simp] theorem State.pending_slotAttention (i : Slot) : (s.slotAttention i).pending = s.pending := rfl
@[simp] theorem State.group_slotAttention (i : Slot) (j : GroupId) : (s.slotAttention i).group j = s.group j := rfl

/-! ### `State.mapSlots` -/

@[simp] theorem State.nodeMap_mapSlots (f : Slot → SlotEntry → SlotEntry) : (s.mapSlots f).nodeMap = s.nodeMap := by simp only [State.mapSlots]
@[simp] theorem State.groups_mapSlots (f : Slot → SlotEntry → SlotEntry) : (s.mapSlots f).groups = s.groups := by simp only [State.mapSlots]
@[simp] theorem State.eventsWaiting_mapSlots (f : Slot → SlotEntry → SlotEntry) : (s.mapSlots f).eventsWaiting = s.eventsWaiting := by simp only [State.mapSlots]
@[simp] theorem State.link_mapSlots (f : Slot → SlotEntry → SlotEntry) : (s.mapSlots f).link = s.link := by simp only [State.mapSlots]
@[simp] theorem State.safety_mapSlots (f : Slot → SlotEntry → SlotEntry) : (s.mapSlots f).safety = s.safety := by simp only [State.mapSlots]
@[simp] theorem State.port_mapSlots (f : Slot → SlotEntry → SlotEntry) : (s.mapSlots f).port = s.port := by simp only [State.mapSlots]
@[simp] theorem State.now_mapSlots (f : Slot → SlotEntry → SlotEntry) : (s.mapSlots f).now = s.now := by simp only [State.mapSlots]
@[simp] theorem State.freeCount_mapSlots (f : Slot → SlotEntry → SlotEntry) : (s.mapSlots f).freeCount = s.freeCount := by simp only [State.mapSlots]
@[simp] theorem State.pending_mapSlots (f : Slot → SlotEntry → SlotEntry) : (s.mapSlots f).pending = s.pending := by simp only [State.mapSlots]
@[simp] theorem State.group_mapSlots (f : Slot → SlotEntry → SlotEntry) (j : GroupId) : (s.mapSlots f).group j = s.group j := by simp only [State.group, State.groups_mapSlots]

/-! ### `State.modMembers` -/

@[simp] theorem State.nodeMap_modMembers (k : GroupId) (f : Hoist → Hoist) : (s.modMembers k f).nodeMap = s.nodeMap := State.nodeMap_mapSlots s _
@[simp] theorem State.groups_modMembers (k : GroupId) (f : Hoist → Hoist) : (s.modMembers k f).groups = s.groups := State.groups_mapSlots s _
@[simp] theorem State.eventsWaiting_modMembers (k : GroupId) (f : Hoist → Hoist) : (s.modMembers k f).eventsWaiting = s.eventsWaiting := State.eventsWaiting_mapSlots s _
@[simp] theorem State.link_modMembers (k : GroupId) (f : Hoist → Hoist) : (s.modMembers k f).link = s.link := State.link_mapSlots s _
@[simp] theorem State.safety_modMembers (k : GroupId) (f : Hoist → Hoist) : (s.modMembers k f).safety = s.safety := State.safety_mapSlots s _
@[simp] theorem State.port_modMembers (k : GroupId) (f : Hoist → Hoist) : (s.modMembers k f).port = s.port := State.port_mapSlots s _
@[simp] theorem State.now_modMembers (k : GroupId) (f : Hoist → Hoist) : (s.modMembers k f).now = s.now := State.now_mapSlots s _
@[simp] theorem State.freeCount_modMembers (k : GroupId) (f : Hoist → Hoist) : (s.modMembers k f).freeCount = s.freeCount := State.freeCount_mapSlots s _
@[simp] theorem State.pending_modMembers (k : GroupId) (f : Hoist → Hoist) : (s.modMembers k f).pending = s.pending := State.pending_mapSlots s _
@[simp] theorem State.group_modMembers (k : GroupId) (f : Hoist → Hoist) (j : GroupId) : (s.modMembers k f).group j = s.group j := by simp only [State.group, State.groups_modMembers]

/-! ### `State.modGroup` -/

@[simp] theorem State.slots_modGroup (k : GroupId) (f : Group → Group) : (s.modGroup k f).slots = s.slots := rfl
@[simp] theorem State.nodeMap_modGroup (k : GroupId) (f : Group → Group) : (s.modGroup k f).nodeMap = s.nodeMap := rfl
@[simp] theorem State.eventsWaiting_modGroup (k : GroupId) (f : Group → Group) : (s.modGroup k f).eventsWaiting = s.eventsWaiting := rfl
@[simp] theorem State.link_modGroup (k : GroupId) (f : Group → Group) : (s.modGroup k f).link = s.link := rfl
@[simp] theorem State.safety_modGroup (k : GroupId) (f : Group → Group) : (s.modGroup k f).safety = s.safety := rfl
@[simp] theorem State.port_modGroup (k : GroupId) (f : Group → Group) : (s.modGroup k f).port = s.port := rfl
@[simp] theorem State.now_modGroup (k : GroupId) (f : Group → Group) : (s.modGroup k f).now = s.now := rfl
@[simp] theorem State.freeCount_modGroup (k : GroupId) (f : Group → Group) : (s.modGroup k f).freeCount = s.freeCount := rfl
@[simp] theorem State.pending_modGroup (k : GroupId) (f : Group → Group) : (s.modGroup k f).pending = s.pending := rfl
@[simp] theorem State.slot_modGroup (k : GroupId) (f : Group → Group) (j : Slot) : (s.modGroup k f).slot j = s.slot j := rfl
@[simp] theorem State.record_modGroup (k : GroupId) (f : Group → Group) (j : Slot) : (s.modGroup k f).record j = s.record j := rfl

/-! ### `State.withGroup` -/

@[simp] theorem State.slots_withGroup (k : GroupId) (g : Group) : (s.withGroup k g).slots = s.slots := rfl
@[simp] theorem State.nodeMap_withGroup (k : GroupId) (g : Group) : (s.withGroup k g).nodeMap = s.nodeMap := rfl
@[simp] theorem State.eventsWaiting_withGroup (k : GroupId) (g : Group) : (s.withGroup k g).eventsWaiting = s.eventsWaiting := rfl
@[simp] theorem State.link_withGroup (k : GroupId) (g : Group) : (s.withGroup k g).link = s.link := rfl
@[simp] theorem State.safety_withGroup (k : GroupId) (g : Group) : (s.withGroup k g).safety = s.safety := rfl
@[simp] theorem State.port_withGroup (k : GroupId) (g : Group) : (s.withGroup k g).port = s.port := rfl
@[simp] theorem State.now_withGroup (k : GroupId) (g : Group) : (s.withGroup k g).now = s.now := rfl
@[simp] theorem State.freeCount_withGroup (k : GroupId) (g : Group) : (s.withGroup k g).freeCount = s.freeCount := rfl
@[simp] theorem State.pending_withGroup (k : GroupId) (g : Group) : (s.withGroup k g).pending = s.pending := rfl
@[simp] theorem State.slot_withGroup (k : GroupId) (g : Group) (j : Slot) : (s.withGroup k g).slot j = s.slot j := rfl
@[simp] theorem State.record_withGroup (k : GroupId) (g : Group) (j : Slot) : (s.withGroup k g).record j = s.record j := rfl

/-! ### `State.mapGroups` -/

@[simp] theorem State.slots_mapGroups (f : Group → Group) : (s.mapGroups f).slots = s.slots := rfl
@[simp] theorem State.nodeMap_mapGroups (f : Group → Group) : (s.mapGroups f).nodeMap = s.nodeMap := rfl
@[simp] theorem State.eventsWaiting_mapGroups (f : Group → Group) : (s.mapGroups f).eventsWaiting = s.eventsWaiting := rfl
@[simp] theorem State.link_mapGroups (f : Group → Group) : (s.mapGroups f).link = s.link := rfl
@[simp] theorem State.safety_mapGroups (f : Group → Group) : (s.mapGroups f).safety = s.safety := rfl
@[simp] theorem State.port_mapGroups (f : Group → Group) : (s.mapGroups f).port = s.port := rfl
@[simp] theorem State.now_mapGroups (f : Group → Group) : (s.mapGroups f).now = s.now := rfl
@[simp] theorem State.freeCount_mapGroups (f : Group → Group) : (s.mapGroups f).freeCount = s.freeCount := rfl
@[simp] theorem State.pending_mapGroups (f : Group → Group) : (s.mapGroups f).pending = s.pending := rfl
@[simp] theorem State.slot_mapGroups (f : Group → Group) (j : Slot) : (s.mapGroups f).slot j = s.slot j := rfl
@[simp] theorem State.record_mapGroups (f : Group → Group) (j : Slot) : (s.mapGroups f).record j = s.record j := rfl

/-! ### `State.modLink` -/

@[simp] theorem State.slots_modLink (f : Link → Link) : (s.modLink f).slots = s.slots := rfl
@[simp] theorem State.nodeMap_modLink (f : Link → Link) : (s.modLink f).nodeMap = s.nodeMap := rfl
@[simp] theorem State.groups_modLink (f : Link → Link) : (s.modLink f).groups = s.groups := rfl
@[simp] theorem State.eventsWaiting_modLink (f : Link → Link) : (s.modLink f).eventsWaiting = s.eventsWaiting := rfl
@[simp] theorem State.safety_modLink (f : Link → Link) : (s.modLink f).safety = s.safety := rfl
@[simp] theorem State.port_modLink (f : Link → Link) : (s.modLink f).port = s.port := rfl
@[simp] theorem State.now_modLink (f : Link → Link) : (s.modLink f).now = s.now := rfl
@[simp] theorem State.freeCount_modLink (f : Link → Link) : (s.modLink f).freeCount = s.freeCount := rfl
@[simp] theorem State.pending_modLink (f : Link → Link) : (s.modLink f).pending = s.pending := rfl
@[simp] theorem State.link_modLink (f : Link → Link) : (s.modLink f).link = f s.link := rfl
@[simp] theorem State.slot_modLink (f : Link → Link) (j : Slot) : (s.modLink f).slot j = s.slot j := rfl
@[simp] theorem State.record_modLink (f : Link → Link) (j : Slot) : (s.modLink f).record j = s.record j := rfl
@[simp] theorem State.group_modLink (f : Link → Link) (j : GroupId) : (s.modLink f).group j = s.group j := rfl

/-! ### `State.modPort` -/

@[simp] theorem State.slots_modPort (f : Port → Port) : (s.modPort f).slots = s.slots := rfl
@[simp] theorem State.nodeMap_modPort (f : Port → Port) : (s.modPort f).nodeMap = s.nodeMap := rfl
@[simp] theorem State.groups_modPort (f : Port → Port) : (s.modPort f).groups = s.groups := rfl
@[simp] theorem State.eventsWaiting_modPort (f : Port → Port) : (s.modPort f).eventsWaiting = s.eventsWaiting := rfl
@[simp] theorem State.link_modPort (f : Port → Port) : (s.modPort f).link = s.link := rfl
@[simp] theorem State.safety_modPort (f : Port → Port) : (s.modPort f).safety = s.safety := rfl
@[simp] theorem State.now_modPort (f : Port → Port) : (s.modPort f).now = s.now := rfl
@[simp] theorem State.freeCount_modPort (f : Port → Port) : (s.modPort f).freeCount = s.freeCount := rfl
@[simp] theorem State.pending_modPort (f : Port → Port) : (s.modPort f).pending = s.pending := rfl
@[simp] theorem State.port_modPort (f : Port → Port) : (s.modPort f).port = f s.port := rfl
@[simp] theorem State.slot_modPort (f : Port → Port) (j : Slot) : (s.modPort f).slot j = s.slot j := rfl
@[simp] theorem State.record_modPort (f : Port → Port) (j : Slot) : (s.modPort f).record j = s.record j := rfl
@[simp] theorem State.group_modPort (f : Port → Port) (j : GroupId) : (s.modPort f).group j = s.group j := rfl

/-! ### Updates written with braces -/

@[simp] theorem State.slot_withLink (l : Link) (i : Slot) : ({ s with link := l } : State).slot i = s.slot i := rfl
@[simp] theorem State.slot_withSafety (x : Safety) (i : Slot) : ({ s with safety := x } : State).slot i = s.slot i := rfl
@[simp] theorem State.slot_withPort (p : Port) (i : Slot) : ({ s with port := p } : State).slot i = s.slot i := rfl
@[simp] theorem State.group_withLink (l : Link) (k : GroupId) : ({ s with link := l } : State).group k = s.group k := rfl
@[simp] theorem State.group_withSafety (x : Safety) (k : GroupId) :
    ({ s with safety := x } : State).group k = s.group k := rfl
@[simp] theorem State.group_withPort (p : Port) (k : GroupId) : ({ s with port := p } : State).group k = s.group k := rfl

/-! ### The slot table after an update -/

/-- A slot reads what was last written to it, and every other slot is as before. -/
theorem State.slot_setSlot (i j : Slot) (e : SlotEntry) : (s.setSlot i e).slot j = if i = j then e else s.slot j := by
  by_cases h : i = j
  · subst h; simp [State.setSlot, State.slot]
  · have : i.val ≠ j.val := fun x => h (Fin.ext x)
    simp [State.setSlot, State.slot, h, Vector.getElem_set_ne, this]

@[simp] theorem State.slot_setSlot_self (i : Slot) (e : SlotEntry) : (s.setSlot i e).slot i = e := by
  simp [State.slot_setSlot]

theorem State.slot_modSlot (i j : Slot) (f : SlotEntry → SlotEntry) :
    (s.modSlot i f).slot j = if i = j then f (s.slot i) else s.slot j := State.slot_setSlot s i j _

@[simp] theorem State.slot_modSlot_self (i : Slot) (f : SlotEntry → SlotEntry) :
    (s.modSlot i f).slot i = f (s.slot i) := by simp [State.slot_modSlot]

theorem State.slot_modRecord (i j : Slot) (f : Hoist → Hoist) :
    (s.modRecord i f).slot j = if i = j then { s.slot i with record := (s.record i).map f } else s.slot j :=
  State.slot_modSlot s i j _

/-- The record after a change of one slot's record. -/
theorem State.record_modRecord (i j : Slot) (f : Hoist → Hoist) :
    (s.modRecord i f).record j = if i = j then (s.record j).map f else s.record j := by
  by_cases h : i = j
  · subst h; simp [State.record, State.slot_modRecord]
  · simp [State.record, State.slot_modRecord, h]

@[simp] theorem State.record_modRecord_self (i : Slot) (f : Hoist → Hoist) :
    (s.modRecord i f).record i = (s.record i).map f := by simp [State.record_modRecord]

theorem State.slot_withRecord (i j : Slot) (h : Hoist) :
    (s.withRecord i h).slot j = if i = j then { s.slot i with record := some h } else s.slot j :=
  State.slot_setSlot s i j _

@[simp] theorem State.record_withRecord_self (i : Slot) (h : Hoist) : (s.withRecord i h).record i = some h := by
  simp [State.record, State.slot_withRecord]

/-- Where a record stands, changing it is writing the changed record. -/
theorem State.modRecord_eq {s : State} {i : Slot} {h : Hoist} (hr : s.record i = some h) (f : Hoist → Hoist) :
    s.modRecord i f = s.withRecord i (f h) := by
  have : (s.slot i).record = some h := hr
  simp [State.modRecord, State.modSlot, SlotEntry.modRecord, State.withRecord, this]

/-- Where no record stands, changing it changes nothing. -/
theorem State.modRecord_none {s : State} {i : Slot} (hr : s.record i = none) (f : Hoist → Hoist) :
    s.modRecord i f = s := by
  have : (s.slot i).record = none := hr
  cases s
  simp_all [State.modRecord, State.modSlot, SlotEntry.modRecord, State.setSlot, State.slot, State.record]
  rw [Vector.ext_iff]
  intro j hj
  by_cases h : i.val = j
  · subst h
    simp only [Vector.getElem_set_self]
    exact (SlotEntry.mk.injEq ..).mpr ⟨hr.symm, rfl, rfl, rfl⟩
  · simp [h]

@[simp] theorem State.slot_mapSlots (f : Slot → SlotEntry → SlotEntry) (i : Slot) :
    (s.mapSlots f).slot i = f i (s.slot i) := by simp [State.mapSlots, State.slot]

theorem State.slot_modMembers (k : GroupId) (f : Hoist → Hoist) (i : Slot) :
    (s.modMembers k f).slot i =
      if i ∈ (s.group k).members then { s.slot i with record := (s.record i).map f } else s.slot i := by
  simp [State.modMembers, SlotEntry.modRecord, State.record]

theorem State.record_modMembers (k : GroupId) (f : Hoist → Hoist) (i : Slot) :
    (s.modMembers k f).record i = if i ∈ (s.group k).members then (s.record i).map f else s.record i := by
  simp only [State.record, State.slot_modMembers]; split <;> rfl

/-! ### The group table after an update -/

theorem State.group_withGroup (k j : GroupId) (g : Group) :
    (s.withGroup k g).group j = if k = j then g else s.group j := by
  by_cases h : k = j
  · subst h; simp [State.withGroup, State.group]
  · have : k.val ≠ j.val := fun x => h (Fin.ext x)
    simp [State.withGroup, State.group, h, Vector.getElem_set_ne, this]

@[simp] theorem State.group_withGroup_self (k : GroupId) (g : Group) : (s.withGroup k g).group k = g := by
  simp [State.group_withGroup]

/-- Changing a group record is writing the changed record. -/
theorem State.modGroup_eq (k : GroupId) (f : Group → Group) : s.modGroup k f = s.withGroup k (f (s.group k)) := rfl

theorem State.group_modGroup (k j : GroupId) (f : Group → Group) :
    (s.modGroup k f).group j = if k = j then f (s.group k) else s.group j := State.group_withGroup s k j _

@[simp] theorem State.group_modGroup_self (k : GroupId) (f : Group → Group) :
    (s.modGroup k f).group k = f (s.group k) := by simp [State.group_modGroup]

@[simp] theorem State.group_mapGroups (f : Group → Group) (k : GroupId) :
    (s.mapGroups f).group k = f (s.group k) := by simp [State.mapGroups, State.group]

/-- Two states are equal when their tables read alike and their other fields are equal. -/
theorem State.ext_tables {s t : State} (h1 : ∀ i, s.slot i = t.slot i) (h2 : ∀ k, s.group k = t.group k)
    (h3 : s.nodeMap = t.nodeMap) (h4 : s.link = t.link) (h5 : s.safety = t.safety) (h6 : s.port = t.port)
    (h7 : s.now = t.now) (h8 : s.freeCount = t.freeCount) (h9 : s.pending = t.pending)
    (h10 : s.eventsWaiting = t.eventsWaiting) : s = t := by
  have e1 : s.slots = t.slots := Vector.ext fun i hi => h1 ⟨i, hi⟩
  have e2 : s.groups = t.groups := Vector.ext fun k hk => h2 ⟨k, hk⟩
  cases s; cases t; simp_all

end Sys2Proof.Machine
end

