-- ==== Sys2Proof/Laws/Clock.lean ====
section
/-! SUPPORT. The clock: the free order puts the due rows into the queue once each, and a tick touches clocks and timers
only. -/

namespace Sys2Proof.Machine

/-- Whatever the free values choose, every due row waits once and no other does (log 3). -/
theorem arrange_perm (n : Nat) (l : List Instr) : (arrange n l).Perm l := by
  induction l generalizing n with
  | nil => exact .refl _
  | cons i l ih =>
    cases l with
    | nil => exact .refl _
    | cons j rest =>
      unfold arrange
      refine (List.perm_insertIdx i _ ?_).trans ((ih (n + 1)).cons i)
      rw [(ih (n + 1)).length_eq]
      exact Nat.le_of_lt_succ (Nat.mod_lt _ (by simp))

/-- A row comes due exactly under its test. -/
@[simp] theorem mem_due (c : Bool) (i j : Instr) : j ∈ Machine.due c i ↔ c = true ∧ j = i := by
  unfold Machine.due; split <;> simp_all

/-- A timer runs out with the microsecond that takes it from 1. -/
@[simp] theorem runsOut_iff (t : Option Nat) : runsOut t = true ↔ t = some 1 := by simp [runsOut]

section Tick
variable (s : State)

@[simp] theorem State.slots_count : s.count.slots = s.slots := rfl
@[simp] theorem State.nodeMap_count : s.count.nodeMap = s.nodeMap := rfl
@[simp] theorem State.port_count : s.count.port = s.port := rfl
@[simp] theorem State.link_count : s.count.link = s.link.tick := rfl
@[simp] theorem State.now_count : s.count.now = s.now + 1 := rfl
@[simp] theorem State.record_count (i : Slot) : s.count.record i = s.record i := rfl
@[simp] theorem State.slot_count (i : Slot) : s.count.slot i = s.slot i := rfl
theorem State.group_count (k : GroupId) : s.count.group k = (s.group k).tick := State.group_mapGroups s Group.tick k

end Tick

/-- A tick leaves of the link everything but the poll's timer, the line and the gaps. -/
theorem Link.tick_fields (l : Link) :
    l.tick = { l with
      poll := l.poll.map PollInFlight.tick
      line := l.tick.line
      gap := l.tick.gap
      lineGap := l.tick.lineGap } := by
  unfold Link.tick
  dsimp only
  split <;> first | rfl | (split <;> rfl)

/-- What DLC begins at a moment is one frame at most. -/
theorem Link.frameDue_cases (l : Link) (now : Nat) :
    l.frameDue now = [] ∨ l.frameDue now = [.haltAll] ∨ l.frameDue now = [.poll] ∨ l.frameDue now = [.roundStart] := by
  unfold Link.frameDue due
  repeat' split
  all_goals simp

/-- A frame that is due takes the step of the empty queue, and no time passes (log 2). -/
theorem State.tick_frame {s : State} {c : Instr} (h : s.endMoment.link.frameDue s.endMoment.now = [c]) :
    s.tick = { s.endMoment with pending := s.endMoment.pending ++ [c] } := by
  simp [State.tick, h]

/-- With no frame due, one microsecond passes (log 2). -/
theorem State.tick_count {s : State} (h : s.endMoment.link.frameDue s.endMoment.now = []) :
    s.tick = s.endMoment.count := by
  simp [State.tick, h]

end Sys2Proof.Machine
end

