-- ==== Sys2Proof/Laws/Port.lean ====
section
/-! SUPPORT. What every command's outcome shares: the pace, the answer in the port, and the taking of a console command;
the bytes of words and numbers. -/

namespace Sys2Proof.Machine

/-! ### The pace (R146) -/

/-- `repace` writes the round state and nothing else. -/
theorem State.repace_eq (s : State) :
    s.repace = { s with link := { s.link with
      round := if s.link.round = .between .slow ∧ s.fastCondition = true then .between .fast else s.link.round } } := by
  unfold State.repace
  split
  · next h =>
    split
    · next hf => simp only [h, hf, and_self, if_true]
    · next hf => rw [if_neg (fun x => hf x.2)]
  · next h => rw [if_neg (fun x => h x.1)]

section Repace
variable (s : State)

@[simp] theorem State.slots_repace : s.repace.slots = s.slots := by rw [State.repace_eq]
@[simp] theorem State.nodeMap_repace : s.repace.nodeMap = s.nodeMap := by rw [State.repace_eq]
@[simp] theorem State.groups_repace : s.repace.groups = s.groups := by rw [State.repace_eq]
@[simp] theorem State.safety_repace : s.repace.safety = s.safety := by rw [State.repace_eq]
@[simp] theorem State.port_repace : s.repace.port = s.port := by rw [State.repace_eq]
@[simp] theorem State.now_repace : s.repace.now = s.now := by rw [State.repace_eq]
@[simp] theorem State.freeCount_repace : s.repace.freeCount = s.freeCount := by rw [State.repace_eq]
@[simp] theorem State.pending_repace : s.repace.pending = s.pending := by rw [State.repace_eq]
@[simp] theorem State.slot_repace (i : Slot) : s.repace.slot i = s.slot i := by simp [State.slot]
@[simp] theorem State.record_repace (i : Slot) : s.repace.record i = s.record i := by simp [State.record]
@[simp] theorem State.group_repace (k : GroupId) : s.repace.group k = s.group k := by simp [State.group]
@[simp] theorem State.poll_repace : s.repace.link.poll = s.link.poll := by rw [State.repace_eq]
@[simp] theorem State.pollList_repace : s.repace.link.pollList = s.link.pollList := by rw [State.repace_eq]
@[simp] theorem State.lossThreshold_repace : s.repace.link.lossThreshold = s.link.lossThreshold := by rw [State.repace_eq]

/-- Where no slow wait stands against the fast condition, `repace` changes nothing. -/
theorem State.repace_of_paced (h : s.link.round = .between .slow → s.fastCondition = false) : s.repace = s := by
  unfold State.repace
  split
  · next hr => simp [h hr]
  · rfl

end Repace

/-! ### The answer in the port (R165) -/

/-- A command's answer, whole. -/
theorem complete_respond (t : State) (a : Answer) :
    complete (respond (t.dropWalk, a)) = .next (t.answering a.status a.data) := rfl

/-- A command whose owner works on the state without its walk and answers there. -/
theorem complete_respond_of {r : State × Answer} {t : State} (h : r.1 = t.dropWalk) :
    complete (respond r) = .next (t.answering r.2.status r.2.data) := by
  obtain ⟨u, a⟩ := r; subst h; rfl

/-- In the command phase a console row is the owner's work, answered (R164). -/
theorem console_command {s : State} (h : s.port.phase = .command) (code : ConsoleCode) (args : List Byte)
    (owner : State → State × Answer) : s.console code args owner = respond (owner s.dropWalk) := by
  simp [State.console, h]

/-- The outcome of a console row in the command phase, from what its owner does without the walk. -/
theorem complete_console {s t : State} {st : Status} {data : List Byte} {code : ConsoleCode} {args : List Byte}
    {owner : State → State × Answer} (hp : s.port.phase = .command) (h : owner s.dropWalk = (t.dropWalk, ⟨st, data⟩)) :
    complete (s.console code args owner) = .next (t.answering st data) := by
  rw [console_command hp, h]; rfl

/-! ### `dropWalk` and the updates -/

section DropWalk
variable (s : State)

@[simp] theorem State.slots_dropWalk : s.dropWalk.slots = s.slots := rfl
@[simp] theorem State.nodeMap_dropWalk : s.dropWalk.nodeMap = s.nodeMap := rfl
@[simp] theorem State.groups_dropWalk : s.dropWalk.groups = s.groups := rfl
@[simp] theorem State.link_dropWalk : s.dropWalk.link = s.link := rfl
@[simp] theorem State.safety_dropWalk : s.dropWalk.safety = s.safety := rfl
@[simp] theorem State.now_dropWalk : s.dropWalk.now = s.now := rfl
@[simp] theorem State.freeCount_dropWalk : s.dropWalk.freeCount = s.freeCount := rfl
@[simp] theorem State.pending_dropWalk : s.dropWalk.pending = s.pending := rfl
@[simp] theorem State.slot_dropWalk (i : Slot) : s.dropWalk.slot i = s.slot i := rfl
@[simp] theorem State.record_dropWalk (i : Slot) : s.dropWalk.record i = s.record i := rfl
@[simp] theorem State.group_dropWalk (k : GroupId) : s.dropWalk.group k = s.group k := rfl
@[simp] theorem State.mainsEn_dropWalk : s.dropWalk.mainsEn = s.mainsEn := rfl

end DropWalk

/-! ### Words and bytes (R181) -/

/-- The two bytes of a word are the word. -/
@[simp] theorem wordOf_hiByte_loByte (w : BitVec 16) : wordOf (hiByte w) (loByte w) = w := by
  simp only [wordOf, hiByte, loByte]
  ext i hi
  rw [BitVec.getElem_append]
  split
  · simp [BitVec.getLsbD_eq_getElem, hi]
  · next h => simp [show 8 + (i - 8) = i by omega, BitVec.getLsbD_eq_getElem, hi]

/-- A number of `n` bytes has `n` bytes. -/
@[simp] theorem length_be (n v : Nat) : (be n v).length = n := by
  induction n with
  | zero => rfl
  | succ n ih => simp [be, ih]

@[simp] theorem length_beOpt (n : Nat) (v : Option Nat) : (beOpt n v).length = n := by cases v <;> simp [beOpt]
@[simp] theorem length_beInt (n : Nat) (v : Int) : (beInt n v).length = n := by simp [beInt]
@[simp] theorem length_beIntOpt (n : Nat) (v : Option Int) : (beIntOpt n v).length = n := by cases v <;> simp [beIntOpt]

/-! ### Arguments -/

/-- A slot argument in range names its slot, and an argument out of range none. -/
theorem slotOf_eq {b : Byte} {i : Slot} (h : b.toNat = i.val) : slotOf b = some i := by
  simp [slotOf, h]

theorem slotOf_none {b : Byte} (h : 32 ≤ b.toNat) : slotOf b = none := by simp [slotOf]; omega

theorem groupOf_eq {b : Byte} {k : GroupId} (h : b.toNat = k.val) : groupOf b = some k := by simp [groupOf, h]

theorem groupOf_none {b : Byte} (h : 8 ≤ b.toNat) : groupOf b = none := by simp [groupOf]; omega

/-- Clamping is putting into the range. -/
theorem clampTo_eq {low high : Nat} (h : low ≤ high) (v : Nat) : clampTo low high v = intoRange low high v := by
  unfold clampTo intoRange; split <;> [omega; (split <;> omega)]

theorem clampTens_eq {low high : Nat} (h : low ≤ high) (v : Nat) :
    clampTens low high v = intoRange low high v - intoRange low high v % 10 := by
  unfold clampTens; rw [clampTo_eq h]; omega

end Sys2Proof.Machine
end

