-- ==== Sys2Proof/Laws/Groups.lean ====
section
/-! SUPPORT. What the shared operations of GENG do: stops and their completion, faults, starts, and the tables that they
touch. Each operation's lemma says once everything it can do. -/

namespace Sys2Proof.Machine

/-! ### Operations that touch the two tables only -/

/-- Nothing but the slot table and the group table differs. -/
structure State.TablesOnly (s t : State) : Prop where
  nodeMap : t.nodeMap = s.nodeMap
  link : t.link = s.link
  safety : t.safety = s.safety
  port : t.port = s.port
  now : t.now = s.now
  freeCount : t.freeCount = s.freeCount
  pending : t.pending = s.pending
  eventsWaiting : t.eventsWaiting = s.eventsWaiting

theorem State.TablesOnly.refl (s : State) : s.TablesOnly s := ⟨rfl, rfl, rfl, rfl, rfl, rfl, rfl, rfl⟩

theorem State.TablesOnly.trans {s t u : State} (h : s.TablesOnly t) (h' : t.TablesOnly u) : s.TablesOnly u :=
  ⟨h'.1.trans h.1, h'.2.trans h.2, h'.3.trans h.3, h'.4.trans h.4, h'.5.trans h.5, h'.6.trans h.6, h'.7.trans h.7,
    h'.8.trans h.8⟩

/-- A state that differs in its tables only is the old state with the new tables. -/
theorem State.TablesOnly.eq {s t : State} (h : s.TablesOnly t) : t = { s with slots := t.slots, groups := t.groups } := by
  obtain ⟨h1, h2, h3, h4, h5, h6, h7, h8⟩ := h
  cases s; cases t; simp_all

theorem State.TablesOnly.modGroup (s : State) (k : GroupId) (f : Group → Group) : s.TablesOnly (s.modGroup k f) :=
  ⟨rfl, rfl, rfl, rfl, rfl, rfl, rfl, rfl⟩

theorem State.TablesOnly.modMembers (s : State) (k : GroupId) (f : Hoist → Hoist) : s.TablesOnly (s.modMembers k f) :=
  ⟨by simp, by simp, by simp, by simp, by simp, by simp, by simp, by simp⟩

/-- A walk over a list of steps that each touch the tables only touches the tables only. -/
theorem State.TablesOnly.foldl {α : Type} (f : State → α → State) (h : ∀ (t : State) (a : α), t.TablesOnly (f t a)) (l : List α)
    (s : State) : s.TablesOnly (l.foldl f s) := by
  induction l generalizing s with
  | nil => exact .refl s
  | cons a l ih => exact (h s a).trans (ih _)

/-! ### Members -/

/-- The test of R113, over the members. -/
theorem State.allAtRest_iff (s : State) (k : GroupId) :
    s.allAtRest k = true ↔ s.EveryMember k fun h => h.state = .ready ∨ h.state = .lost := by
  simp only [State.allAtRest, List.all_eq_true]
  refine forall₂_congr fun i _ => ?_
  cases s.record i <;> simp [or_comm]

/-- A stopping group has not come to rest where a member is neither HST_READY nor HST_LOST. -/
theorem State.allAtRest_false (s : State) (k : GroupId) :
    s.allAtRest k = false ↔ s.SomeMember k fun h => h.state ≠ .ready ∧ h.state ≠ .lost := by
  rw [← Bool.not_eq_true, State.allAtRest_iff]
  simp only [State.EveryMember, State.SomeMember, not_forall, not_or, exists_prop]

/-- Every member has a record that passes the test. -/
theorem State.everyMember_iff (s : State) (k : GroupId) (p : Hoist → Bool) :
    s.everyMember k p = true ↔ s.MembersAll k fun h => p h = true := by
  simp only [State.everyMember, List.all_eq_true, State.MembersAll]
  refine forall₂_congr fun i _ => ?_
  cases s.record i <;> simp

/-- The lowest member that passes a test, from the order of the member set. -/
theorem State.lowestMember_eq {s : State} {k : GroupId} {p : Hoist → Bool} {before later : List Slot} {i : Slot} {h : Hoist}
    (hm : (s.group k).members = before ++ i :: later) (hb : ∀ j ∈ before, ∀ r ∈ s.record j, p r = false)
    (hr : s.record i = some h) (hp : p h = true) : s.lowestMember k p = some i := by
  rw [State.lowestMember, List.find?_eq_some_iff_append]
  refine ⟨by simpa [hr] using hp, before, later, hm, fun j hj => ?_⟩
  have := hb j hj
  cases hj' : s.record j <;> simp_all

/-! ### Stop completion (R113) -/

/-- A test for completion: a stopping group at rest completes, any other is unchanged. -/
theorem State.testStop_cases (s : State) (k : GroupId) :
    (s.testStop k = s.modGroup k Group.completeStop ∧ (s.group k).state = .stopping ∧ s.allAtRest k = true) ∨
      (s.testStop k = s ∧ ¬ ((s.group k).state = .stopping ∧ s.allAtRest k = true)) := by
  unfold State.testStop
  split
  · next h => exact .inl ⟨rfl, h⟩
  · next h => exact .inr ⟨rfl, h⟩

theorem State.testStop_tables (s : State) (k : GroupId) : s.TablesOnly (s.testStop k) := by
  rcases s.testStop_cases k with ⟨h, -⟩ | ⟨h, -⟩ <;> rw [h]
  · exact .modGroup ..
  · exact .refl s

@[simp] theorem State.slots_testStop (s : State) (k : GroupId) : (s.testStop k).slots = s.slots := by
  rcases s.testStop_cases k with ⟨h, -⟩ | ⟨h, -⟩ <;> rw [h]; rfl

@[simp] theorem State.slot_testStop (s : State) (k : GroupId) (i : Slot) : (s.testStop k).slot i = s.slot i := by
  simp [State.slot]

theorem State.group_testStop_ne (s : State) {k j : GroupId} (h : k ≠ j) : (s.testStop k).group j = s.group j := by
  rcases s.testStop_cases k with ⟨e, -⟩ | ⟨e, -⟩ <;> rw [e]
  rw [State.group_modGroup, if_neg h]

/-! ### The stop sequence (R112) -/

theorem State.enterStopping_tables (s : State) (k : GroupId) (cause : StopCause) (slot : Option Slot)
    (value : Option Int) : s.TablesOnly (s.enterStopping k cause slot value) :=
  ((State.TablesOnly.modGroup ..).trans (.modMembers ..)).trans (State.testStop_tables ..)

/-- The members are stopped, and no other slot changes. -/
theorem State.slot_enterStopping (s : State) (k : GroupId) (cause : StopCause) (slot : Option Slot) (value : Option Int)
    (i : Slot) :
    (s.enterStopping k cause slot value).slot i =
      if i ∈ (s.group k).members then { s.slot i with record := (s.record i).map Hoist.stop } else s.slot i := by
  simp only [State.enterStopping, State.slot_testStop, State.slot_modMembers, State.group_modGroup_self,
    State.record_modGroup, State.slot_modGroup]
  rfl

/-- No other group changes. -/
theorem State.group_enterStopping_ne (s : State) {k j : GroupId} (h : k ≠ j) (cause : StopCause) (slot : Option Slot)
    (value : Option Int) : (s.enterStopping k cause slot value).group j = s.group j := by
  simp only [State.enterStopping, State.group_testStop_ne _ h, State.group_modMembers]
  rw [State.group_modGroup, if_neg h]

/-- The group itself: stopping, or complete at once where every member is at rest. -/
theorem State.group_enterStopping_self (s : State) (k : GroupId) (cause : StopCause) (slot : Option Slot)
    (value : Option Int) :
    (s.enterStopping k cause slot value).group k =
      if ((s.modGroup k fun g => g.beginStop cause slot value).modMembers k Hoist.stop).allAtRest k then
        ((s.group k).beginStop cause slot value).completeStop
      else (s.group k).beginStop cause slot value := by
  unfold State.enterStopping
  rcases State.testStop_cases ((s.modGroup k fun g => g.beginStop cause slot value).modMembers k Hoist.stop) k with
    ⟨h, -, h'⟩ | ⟨h, h'⟩
  · rw [h, if_pos h']; simp
  · rw [h, if_neg]
    · simp
    · intro h''; exact h' ⟨by simp [Group.beginStop], h''⟩

/-- A stop reaches a moving record only. -/
theorem Hoist.stop_of_ne {h : Hoist} (hs : h.state ≠ .moving) : h.stop = h := by simp [Hoist.stop, hs]

/-! ### Condition events (R108) and losses (R109) -/

/-- A condition event in each state of the group. -/
theorem State.conditionEvent_eq (s : State) (k : GroupId) (i : Slot) (c : Cond) (value : Option Int) :
    s.conditionEvent k i c value =
      if (s.group k).state = .moving then s.enterStopping k (.fault c) (some i) value
      else if (s.group k).state = .armed ∨ (s.group k).state = .settling then
        s.withGroup k ((s.group k).fault c (some i) value)
      else if (s.group k).state = .idle then s.withGroup k ((s.group k).post c i value)
      else s := by
  unfold State.conditionEvent
  cases h : (s.group k).state <;> simp [State.modGroup_eq]

theorem State.conditionEvent_tables (s : State) (k : GroupId) (i : Slot) (c : Cond) (value : Option Int) :
    s.TablesOnly (s.conditionEvent k i c value) := by
  unfold State.conditionEvent
  split <;> first | exact State.enterStopping_tables .. | exact .modGroup .. | exact .refl s

theorem State.lossEvent_tables (s : State) (k : GroupId) (i : Slot) (value : Option Int) :
    s.TablesOnly (s.lossEvent k i value) := by
  unfold State.lossEvent
  split
  · exact State.testStop_tables ..
  · exact State.conditionEvent_tables ..

theorem State.loseHold_tables (s : State) (k : GroupId) : s.TablesOnly (s.loseHold k) :=
  (State.enterStopping_tables ..).trans (.modGroup ..)

theorem State.estopGroup_tables (s : State) (k : GroupId) : s.TablesOnly (s.estopGroup k) := by
  unfold State.estopGroup
  split
  · exact State.enterStopping_tables ..
  · exact .modGroup ..
  · exact .modGroup ..
  · split <;> first | exact .refl s | exact .modGroup ..
  all_goals exact .refl s

theorem State.estopGroups_tables (s : State) : s.TablesOnly s.estopGroups :=
  .foldl _ State.estopGroup_tables _ s

/-! ### Starts (R43, R44, R54 to R56) -/

/-- A group awaits a start source: armed, with a head cue that names it. -/
theorem Group.awaits_iff (g : Group) (src : StartSource) :
    g.awaits src = true ↔ g.state = .armed ∧ g.queue.head?.map (·.source) = some src := by
  unfold Group.awaits Group.head
  cases g.queue.head? <;> simp

/-- The start of an armed group with a head cue and a direction. -/
theorem State.startMove_eq {s : State} {k : GroupId} {cue : Cue} {rest : List Cue} {dir : Travel}
    (h1 : (s.group k).state = .armed) (h2 : (s.group k).queue = cue :: rest) (h3 : (s.group k).direction = some dir) :
    s.startMove k =
      (s.modGroup k fun g => g.begin cue dir (average (s.normalHeights k))).modMembers k Hoist.startMove := by
  simp [State.startMove, h1, h2, h3, Group.head]

/-- A group that is not armed is not started. -/
theorem State.startMove_of_ne {s : State} {k : GroupId} (h : (s.group k).state ≠ .armed) : s.startMove k = s := by
  unfold State.startMove; split <;> simp_all

/-- A start begins a move or does nothing. -/
theorem State.startMove_cases (s : State) (k : GroupId) :
    s.startMove k = s ∨ ∃ cue dir, (s.group k).state = .armed ∧ (s.group k).head = some cue ∧
      (s.group k).direction = some dir ∧ s.startMove k =
        (s.modGroup k fun g => g.begin cue dir (average (s.normalHeights k))).modMembers k Hoist.startMove := by
  unfold State.startMove
  split
  · next cue dir h1 h2 h3 => exact .inr ⟨cue, dir, h1, h2, h3, rfl⟩
  · exact .inl rfl

theorem State.startMove_tables (s : State) (k : GroupId) : s.TablesOnly (s.startMove k) := by
  rcases s.startMove_cases k with h | ⟨cue, dir, -, -, -, h⟩ <;> rw [h]
  · exact .refl s
  · exact (State.TablesOnly.modGroup ..).trans (.modMembers ..)

/-- A start leaves every other group as it is. -/
theorem State.group_startMove_ne (s : State) {k j : GroupId} (h : k ≠ j) : (s.startMove k).group j = s.group j := by
  rcases s.startMove_cases k with e | ⟨cue, dir, -, -, -, e⟩ <;> rw [e]
  rw [State.group_modMembers, State.group_modGroup, if_neg h]

theorem State.startAll_tables (s : State) (src : StartSource) : s.TablesOnly (s.startAll src) := by
  refine .foldl _ (fun t k => ?_) _ s
  split
  · exact State.startMove_tables t k
  · exact .refl t

theorem State.settleRound_tables (s : State) (k : GroupId) : s.TablesOnly (s.settleRound k) := by
  unfold State.settleRound
  split
  · split
    · exact (State.TablesOnly.modGroup ..).trans (State.startAll_tables ..)
    · exact .modGroup ..
  · exact .refl s

theorem State.settleRounds_tables (s : State) : s.TablesOnly s.settleRounds := .foldl _ State.settleRound_tables _ s

theorem State.landedEvent_tables (s : State) (k : GroupId) : s.TablesOnly (s.landedEvent k) := by
  unfold State.landedEvent
  split
  · dsimp only
    split
    · exact ((State.TablesOnly.modGroup ..).trans (.modMembers ..)).trans (State.startAll_tables ..)
    · exact (State.TablesOnly.modGroup ..).trans (.modMembers ..)
  · exact .refl s

/-! ### The events of a reply (R81, R87) -/

theorem State.takeEvents_tables (s : State) (e : MemberEvents) : s.TablesOnly (s.takeEvents e) := by
  unfold State.takeEvents
  split <;> dsimp only <;> split
  · exact (State.conditionEvent_tables ..).trans (State.landedEvent_tables ..)
  · exact State.conditionEvent_tables ..
  · exact State.landedEvent_tables ..
  · exact .refl s

/-- Events that a stopping group takes have no effect (R81, R87, R108). -/
theorem State.takeEvents_stopping {s : State} {e : MemberEvents} (h : (s.group e.group).state = .stopping) :
    s.takeEvents e = s := by
  unfold State.takeEvents State.conditionEvent State.landedEvent
  split <;> simp [h]

/-! ### The port does not matter to GENG -/

@[simp] theorem State.modGroup_dropWalk (s : State) (k : GroupId) (f : Group → Group) :
    s.dropWalk.modGroup k f = (s.modGroup k f).dropWalk := rfl

@[simp] theorem State.modRecord_dropWalk (s : State) (i : Slot) (f : Hoist → Hoist) :
    s.dropWalk.modRecord i f = (s.modRecord i f).dropWalk := rfl

@[simp] theorem State.mapSlots_dropWalk (s : State) (f : Slot → SlotEntry → SlotEntry) :
    s.dropWalk.mapSlots f = (s.mapSlots f).dropWalk := by
  simp only [State.mapSlots, State.dropWalk, State.modPort]

@[simp] theorem State.modMembers_dropWalk (s : State) (k : GroupId) (f : Hoist → Hoist) :
    s.dropWalk.modMembers k f = (s.modMembers k f).dropWalk := State.mapSlots_dropWalk s _

@[simp] theorem State.testStop_dropWalk (s : State) (k : GroupId) : s.dropWalk.testStop k = (s.testStop k).dropWalk := by
  unfold State.testStop
  have : s.dropWalk.allAtRest k = s.allAtRest k := by simp only [State.allAtRest, State.group_dropWalk, State.record_dropWalk]
  rw [apply_ite State.dropWalk, this, State.group_dropWalk, State.modGroup_dropWalk]

/-- The operations of a console command that GENG takes commute with the end of the walk. -/
@[simp] theorem State.enterStopping_dropWalk (s : State) (k : GroupId) (cause : StopCause) (slot : Option Slot)
    (value : Option Int) :
    s.dropWalk.enterStopping k cause slot value = (s.enterStopping k cause slot value).dropWalk := by
  simp only [State.enterStopping, State.modGroup_dropWalk, State.modMembers_dropWalk, State.testStop_dropWalk]

@[simp] theorem State.startMove_dropWalk (s : State) (k : GroupId) :
    s.dropWalk.startMove k = (s.startMove k).dropWalk := by
  have hn : s.dropWalk.normalHeights k = s.normalHeights k := by
    simp only [State.normalHeights, State.memberRecords, State.group_dropWalk]; rfl
  unfold State.startMove
  simp only [State.group_dropWalk, hn, State.modGroup_dropWalk, State.modMembers_dropWalk]
  split <;> rfl

end Sys2Proof.Machine
end

