-- ==== Sys2Proof/Laws/Sets.lean ====
section
/-! SUPPORT. Condition sets, ascending slot lists and the node address map: what an operation leaves in them, and that it
keeps their canonical form. -/

namespace Sys2Proof.Machine

/-! ### Condition sets -/

/-- Every condition is in the list of all. -/
@[simp] theorem Cond.mem_all (c : Cond) : c ∈ Cond.all := by cases c <;> decide

@[simp] theorem CondSet.mem_ofTest (p : Cond → Bool) (c : Cond) : c ∈ CondSet.ofTest p ↔ p c = true := by
  simp [CondSet.ofTest]

@[simp] theorem CondSet.mem_union (a b : CondSet) (c : Cond) : c ∈ a.union b ↔ c ∈ a ∨ c ∈ b := by
  simp [CondSet.union]

@[simp] theorem CondSet.mem_add (a : CondSet) (c d : Cond) : d ∈ a.add c ↔ d ∈ a ∨ d = c := by
  simp [CondSet.add]

@[simp] theorem CondSet.mem_remove (a : CondSet) (c d : Cond) : d ∈ a.remove c ↔ d ∈ a ∧ d ≠ c := by
  simp [CondSet.remove]

/-- The set of a test is in its canonical form. -/
theorem CondSet.wf_ofTest (p : Cond → Bool) : (CondSet.ofTest p).wf := by
  unfold CondSet.wf
  conv => lhs; unfold CondSet.ofTest
  conv => rhs; unfold CondSet.ofTest
  congr 1
  funext c
  simp

theorem CondSet.wf_union (a b : CondSet) : (a.union b).wf := CondSet.wf_ofTest _
theorem CondSet.wf_add (a : CondSet) (c : Cond) : (a.add c).wf := CondSet.wf_ofTest _
theorem CondSet.wf_remove (a : CondSet) (c : Cond) : (a.remove c).wf := CondSet.wf_ofTest _
theorem CondSet.wf_nil : CondSet.wf [] := by decide

/-- Two sets in canonical form with the same members are equal. -/
theorem CondSet.ext_wf {a b : CondSet} (ha : a.wf) (hb : b.wf) (h : ∀ c, c ∈ a ↔ c ∈ b) : a = b := by
  rw [ha, hb]
  congr 1
  funext c
  simp [h c]

/-- The highest-priority condition of a set that passes a test is a member that passes it. -/
theorem CondSet.top_mem {a : CondSet} {p : Cond → Bool} {c : Cond} (h : a.top p = some c) : c ∈ a ∧ p c = true := by
  have := List.find?_some h
  simpa using this

/-- A set without a passing member has no highest one. -/
theorem CondSet.top_none (a : CondSet) (p : Cond → Bool) : a.top p = none ↔ ∀ c ∈ a, p c = false := by
  simp [CondSet.top, List.find?_eq_none]

/-- A stop-class condition is in the set. -/
theorem CondSet.hasStop_iff (a : CondSet) : a.hasStop = true ↔ ∃ c ∈ a, c.condClass = .stop := by
  simp [CondSet.hasStop, Cond.isStop]

/-! ### Ascending slot lists -/

@[simp] theorem mem_insertSlot (i j : Slot) (l : List Slot) : j ∈ insertSlot i l ↔ j = i ∨ j ∈ l := by
  induction l with
  | nil => simp [insertSlot]
  | cons k l ih =>
    unfold insertSlot
    split
    · simp
    · split
      · next h => subst h; simp
      · simp only [List.mem_cons, ih]; tauto

@[simp] theorem mem_removeSlot (i j : Slot) (l : List Slot) : j ∈ removeSlot i l ↔ j ∈ l ∧ j ≠ i := by
  simp [removeSlot]

/-- A slot entering an ascending list leaves it ascending. -/
theorem pairwise_insertSlot (i : Slot) {l : List Slot} (h : l.Pairwise (· < ·)) :
    (insertSlot i l).Pairwise (· < ·) := by
  induction l with
  | nil => simp [insertSlot]
  | cons k l ih =>
    obtain ⟨hk, hl⟩ := List.pairwise_cons.1 h
    unfold insertSlot
    split
    · next hik => exact List.pairwise_cons.2 ⟨fun j hj => by
        rcases List.mem_cons.1 hj with rfl | hj
        · exact hik
        · exact lt_trans hik (hk j hj), h⟩
    · split
      · exact h
      · next h1 h2 =>
        refine List.pairwise_cons.2 ⟨fun j hj => ?_, ih hl⟩
        rcases (mem_insertSlot i j l).1 hj with rfl | hj
        · exact lt_of_le_of_ne (not_lt.1 h1) (Ne.symm h2)
        · exact hk j hj

theorem pairwise_removeSlot (i : Slot) {l : List Slot} (h : l.Pairwise (· < ·)) : (removeSlot i l).Pairwise (· < ·) :=
  h.filter _

/-- Two ascending lists with the same members are equal. -/
theorem ascending_ext {l m : List Slot} (hl : l.Pairwise (· < ·)) (hm : m.Pairwise (· < ·)) (h : ∀ i, i ∈ l ↔ i ∈ m) :
    l = m := by
  induction l generalizing m with
  | nil => cases m with
    | nil => rfl
    | cons b m => simpa using h b
  | cons a l ih =>
    cases m with
    | nil => simpa using h a
    | cons b m =>
      obtain ⟨ha, hl'⟩ := List.pairwise_cons.1 hl
      obtain ⟨hb, hm'⟩ := List.pairwise_cons.1 hm
      have hab : a = b := by
        rcases List.mem_cons.1 ((h a).1 (by simp)) with e | e
        · exact e
        · rcases List.mem_cons.1 ((h b).2 (by simp)) with e' | e'
          · exact e'.symm
          · exact absurd (lt_trans (ha b e') (hb a e)) (lt_irrefl _)
      subst hab
      congr 1
      refine ih hl' hm' fun i => ?_
      have := h i
      simp only [List.mem_cons] at this
      constructor
      · intro hi
        rcases this.1 (.inr hi) with rfl | hi'
        · exact absurd (ha _ hi) (lt_irrefl _)
        · exact hi'
      · intro hi
        rcases this.2 (.inr hi) with rfl | hi'
        · exact absurd (hb _ hi) (lt_irrefl _)
        · exact hi'

/-- The slots with a record, and the slots whose record names a group, ascend. -/
theorem State.pairwise_listed (s : State) : s.listed.Pairwise (· < ·) := (List.pairwise_lt_finRange 32).filter _

theorem State.mem_listed (s : State) (i : Slot) : i ∈ s.listed ↔ (s.record i).isSome = true := by
  simp [State.listed]

theorem State.pairwise_naming (s : State) (k : GroupId) : (s.naming k).Pairwise (· < ·) :=
  (List.pairwise_lt_finRange 32).filter _

theorem State.mem_naming (s : State) (k : GroupId) (i : Slot) :
    i ∈ s.naming k ↔ (s.record i).bind (·.group) = some k := by
  simp [State.naming]

/-! ### The node address map (R7) -/

/-- What the map holds after an address enters it. -/
theorem mem_insertAddress {m : List (Nat × Slot)} (hm : m.Pairwise fun a b => a.1 < b.1) (a : Nat) (i : Slot)
    (e : Nat × Slot) : e ∈ insertAddress a i m ↔ e = (a, i) ∨ e ∈ m ∧ e.1 ≠ a := by
  induction m with
  | nil => simp [insertAddress]
  | cons b m ih =>
    obtain ⟨x, j⟩ := b
    obtain ⟨hx, hm⟩ := List.pairwise_cons.1 hm
    have hgt : ∀ e ∈ m, x < e.1 := hx
    unfold insertAddress
    split
    · next hlt =>
      simp only [List.mem_cons]
      constructor
      · rintro (h | h | h)
        · exact .inl h
        · subst h; exact .inr ⟨.inl rfl, fun h' => absurd hlt (by simp only at h'; omega)⟩
        · exact .inr ⟨.inr h, fun h' => by have := hgt e h; omega⟩
      · rintro (h | ⟨h | h, -⟩)
        · exact .inl h
        · exact .inr (.inl h)
        · exact .inr (.inr h)
    · split
      · next h1 h2 =>
        subst h2
        simp only [List.mem_cons]
        constructor
        · rintro (h | h)
          · exact .inl h
          · exact .inr ⟨.inr h, fun h' => by have := hgt e h; omega⟩
        · rintro (h | ⟨h | h, h'⟩)
          · exact .inl h
          · subst h; exact absurd rfl h'
          · exact .inr h
      · next h1 h2 =>
        simp only [List.mem_cons, ih hm]
        constructor
        · rintro (h | h | ⟨h, h'⟩)
          · subst h; exact .inr ⟨.inl rfl, fun h' => h2 h'.symm⟩
          · exact .inl h
          · exact .inr ⟨.inr h, h'⟩
        · rintro (h | ⟨h | h, h'⟩)
          · exact .inr (.inl h)
          · exact .inl h
          · exact .inr (.inr ⟨h, h'⟩)

@[simp] theorem mem_removeAddress (a : Nat) (m : List (Nat × Slot)) (e : Nat × Slot) :
    e ∈ removeAddress a m ↔ e ∈ m ∧ e.1 ≠ a := by simp [removeAddress]

/-- An address entering the map leaves it ascending. -/
theorem pairwise_insertAddress {m : List (Nat × Slot)} (hm : m.Pairwise fun a b => a.1 < b.1) (a : Nat) (i : Slot) :
    (insertAddress a i m).Pairwise fun a b => a.1 < b.1 := by
  induction m with
  | nil => simp [insertAddress]
  | cons b m ih =>
    obtain ⟨x, j⟩ := b
    obtain ⟨hx, hm'⟩ := List.pairwise_cons.1 hm
    have hgt : ∀ e ∈ m, x < e.1 := hx
    unfold insertAddress
    split
    · next hlt => exact List.pairwise_cons.2 ⟨fun e he => by
        rcases List.mem_cons.1 he with rfl | he
        · exact hlt
        · exact lt_trans hlt (hgt e he), hm⟩
    · split
      · next h1 h2 => subst h2; exact List.pairwise_cons.2 ⟨hgt, hm'⟩
      · next h1 h2 =>
        refine List.pairwise_cons.2 ⟨fun e he => ?_, ih hm'⟩
        rcases (mem_insertAddress hm' a i e).1 he with rfl | ⟨he, -⟩
        · exact (by show x < a; omega)
        · exact hgt e he

theorem pairwise_removeAddress (a : Nat) {m : List (Nat × Slot)} (hm : m.Pairwise fun a b => a.1 < b.1) :
    (removeAddress a m).Pairwise fun a b => a.1 < b.1 := hm.filter _

/-- An address that no entry holds is not found. -/
theorem lookupAddress_none (a : Nat) (m : List (Nat × Slot)) : lookupAddress a m = none ↔ ∀ e ∈ m, e.1 ≠ a := by
  simp [lookupAddress, List.find?_eq_none]

end Sys2Proof.Machine
end

