-- ==== Sys2Proof/Laws/Link.lean ====
section
/-! SUPPORT. What the shared operations of DLC, HTAB and TRK do: rounds, the poll list's events, a record leaving its
slot, the jog end, losses, misses and the taking of a reply. -/

namespace Sys2Proof.Machine

/-! ### Operations that leave the port and the model's own fields -/

/-- The port and the model's own fields are as before. -/
structure State.PortKept (s t : State) : Prop where
  port : t.port = s.port
  now : t.now = s.now
  freeCount : t.freeCount = s.freeCount
  pending : t.pending = s.pending
  eventsWaiting : t.eventsWaiting = s.eventsWaiting

theorem State.PortKept.refl (s : State) : s.PortKept s := ⟨rfl, rfl, rfl, rfl, rfl⟩

theorem State.PortKept.trans {s t u : State} (h : s.PortKept t) (h' : t.PortKept u) : s.PortKept u :=
  ⟨h'.1.trans h.1, h'.2.trans h.2, h'.3.trans h.3, h'.4.trans h.4, h'.5.trans h.5⟩

theorem State.TablesOnly.portKept {s t : State} (h : s.TablesOnly t) : s.PortKept t :=
  ⟨h.port, h.now, h.freeCount, h.pending, h.eventsWaiting⟩

theorem State.PortKept.modLink (s : State) (f : Link → Link) : s.PortKept (s.modLink f) := ⟨rfl, rfl, rfl, rfl, rfl⟩
theorem State.PortKept.modSlot (s : State) (i : Slot) (f : SlotEntry → SlotEntry) : s.PortKept (s.modSlot i f) :=
  ⟨rfl, rfl, rfl, rfl, rfl⟩
theorem State.PortKept.modRecord (s : State) (i : Slot) (f : Hoist → Hoist) : s.PortKept (s.modRecord i f) :=
  ⟨rfl, rfl, rfl, rfl, rfl⟩

/-! ### Rounds (R144 to R147) -/

/-- No listed slot is left to poll: none lies above the last polled one. -/
theorem Link.nextSlot_none (l : Link) : l.nextSlot = none ↔ ∀ i ∈ l.pollList, ∃ j ∈ l.lastPolled, i ≤ j := by
  simp only [Link.nextSlot, List.find?_eq_none]
  refine forall₂_congr fun i _ => ?_
  cases l.lastPolled <;> simp

/-- The next slot is listed and lies above the last polled one. -/
theorem Link.nextSlot_mem {l : Link} {i : Slot} (h : l.nextSlot = some i) :
    i ∈ l.pollList ∧ ∀ j ∈ l.lastPolled, j < i := by
  refine ⟨List.mem_of_find?_eq_some h, fun j hj => ?_⟩
  have := List.find?_some h
  rw [Option.mem_def.1 hj] at this
  simpa using this

/-- What the decision on the next round writes (R145, R146). -/
theorem State.decideRound_eq (s : State) :
    s.decideRound = { s with link :=
      if s.link.pollList = [] then { s.link with round := .stopped, haltOwed := false }
      else { s.link with round := .between (if s.fastCondition then .fast else .slow) } } := by
  unfold State.decideRound State.modLink
  cases h : s.link.pollList <;> simp [h]

/-- The completion of a round counts it in the settling groups, and then decides on the link alone. -/
theorem State.completeRound_eq (s : State) :
    s.completeRound = { s.settleRounds with link :=
      if s.link.pollList = [] then { s.link with round := .stopped, haltOwed := false }
      else { s.link with round := .between (if s.settleRounds.fastCondition then .fast else .slow) } } := by
  rw [State.completeRound, State.decideRound_eq, s.settleRounds_tables.link]

/-- The completion of a round in the words of the statements. -/
theorem State.completeRound_eq_roundCompleted (s : State) : s.completeRound = s.roundCompleted := by
  rw [State.completeRound_eq, State.roundCompleted]; split <;> simp_all

/-- The end of a poll completes the round or goes on in it. -/
theorem State.closePoll_cases (s : State) (i : Slot) :
    let t := s.modLink fun l => l.shutPoll i
    (s.closePoll i = t.completeRound ∧ t.link.nextSlot = none) ∨ (s.closePoll i = t ∧ t.link.nextSlot ≠ none) := by
  simp only [State.closePoll, State.completeIfDone]
  split
  · next h => exact .inl ⟨rfl, h⟩
  · next h => exact .inr ⟨rfl, h⟩

theorem State.completeRound_kept (s : State) : s.PortKept s.completeRound := by
  have h := s.settleRounds_tables
  rw [State.completeRound_eq]
  constructor <;> dsimp only
  exacts [h.port, h.now, h.freeCount, h.pending, h.eventsWaiting]

theorem State.completeIfDone_kept (s : State) : s.PortKept s.completeIfDone := by
  unfold State.completeIfDone; split
  · exact s.completeRound_kept
  · exact .refl s

theorem State.closePoll_kept (s : State) (i : Slot) : s.PortKept (s.closePoll i) :=
  (State.PortKept.modLink ..).trans (State.completeIfDone_kept _)

theorem State.endPoll_kept (s : State) (i : Slot) (rest : Nat) : s.PortKept (s.endPoll i rest) := by
  unfold State.endPoll
  dsimp only
  split
  · exact State.PortKept.modLink ..
  · exact (State.PortKept.modLink ..).trans (State.completeIfDone_kept _)

theorem State.completeIdleRound_kept (s : State) : s.PortKept s.completeIdleRound := by
  unfold State.completeIdleRound
  split
  · exact s.completeIfDone_kept
  · exact .refl s

/-! ### Fields that a round's completion never touches -/

@[simp] theorem State.nodeMap_completeRound (s : State) : s.completeRound.nodeMap = s.nodeMap := by
  rw [State.completeRound_eq]; dsimp only; exact s.settleRounds_tables.nodeMap

@[simp] theorem State.safety_completeRound (s : State) : s.completeRound.safety = s.safety := by
  rw [State.completeRound_eq]; dsimp only; exact s.settleRounds_tables.safety

@[simp] theorem State.pollList_completeRound (s : State) : s.completeRound.link.pollList = s.link.pollList := by
  rw [State.completeRound_eq]
  dsimp only
  split <;> rfl

@[simp] theorem State.nodeMap_completeIfDone (s : State) : s.completeIfDone.nodeMap = s.nodeMap := by
  unfold State.completeIfDone; split <;> simp

@[simp] theorem State.safety_completeIfDone (s : State) : s.completeIfDone.safety = s.safety := by
  unfold State.completeIfDone; split <;> simp

@[simp] theorem State.pollList_completeIfDone (s : State) : s.completeIfDone.link.pollList = s.link.pollList := by
  unfold State.completeIfDone; split <;> simp

@[simp] theorem State.nodeMap_completeIdleRound (s : State) : s.completeIdleRound.nodeMap = s.nodeMap := by
  unfold State.completeIdleRound; split <;> simp

@[simp] theorem State.safety_completeIdleRound (s : State) : s.completeIdleRound.safety = s.safety := by
  unfold State.completeIdleRound; split <;> simp

@[simp] theorem State.pollList_completeIdleRound (s : State) :
    s.completeIdleRound.link.pollList = s.link.pollList := by
  unfold State.completeIdleRound; split <;> simp

/-! ### Events that waited (R81, R84, R87) -/

/-- With no events waiting there is nothing to take. -/
theorem State.deliverEvents_none {s : State} (h : s.eventsWaiting = none) : s.deliverEvents = s := by
  simp [State.deliverEvents, h]

/-- The taking of events that wait touches the two tables and, where their round is done, the round; none wait after it. -/
theorem State.deliverEvents_spec (s : State) :
    s.deliverEvents.nodeMap = s.nodeMap ∧ s.deliverEvents.safety = s.safety ∧
      s.deliverEvents.link.pollList = s.link.pollList ∧ s.deliverEvents.eventsWaiting = none ∧
      State.PortKept { s with eventsWaiting := none } s.deliverEvents := by
  unfold State.deliverEvents
  split
  · next e _ =>
    have h := State.takeEvents_tables { s with eventsWaiting := none } e
    have k := State.completeIdleRound_kept (State.takeEvents { s with eventsWaiting := none } e)
    refine ⟨?_, ?_, ?_, ?_, ⟨?_, ?_, ?_, ?_, ?_⟩⟩
    · rw [State.nodeMap_completeIdleRound, h.nodeMap]
    · rw [State.safety_completeIdleRound, h.safety]
    · rw [State.pollList_completeIdleRound, h.link]
    · rw [k.eventsWaiting, h.eventsWaiting]
    · rw [k.port, h.port]
    · rw [k.now, h.now]
    · rw [k.freeCount, h.freeCount]
    · rw [k.pending, h.pending]
    · rw [k.eventsWaiting, h.eventsWaiting]
  · next h => exact ⟨rfl, rfl, rfl, h, rfl, rfl, rfl, rfl, h⟩

/-! ### The deliveries of an assertion (R115, R134, R155) -/

theorem State.estopLink_kept (s : State) : s.PortKept s.estopLink := by
  unfold State.estopLink
  split
  · exact .refl s
  · split
    · exact ((State.PortKept.modLink ..).trans (State.closePoll_kept ..)).trans (.modLink ..)
    · exact .modLink ..

@[simp] theorem State.nodeMap_estopLink (s : State) : s.estopLink.nodeMap = s.nodeMap := by
  unfold State.estopLink
  split
  · rfl
  · split
    · simp [State.closePoll]
    · rfl

@[simp] theorem State.safety_estopLink (s : State) : s.estopLink.safety = s.safety := by
  unfold State.estopLink
  split
  · rfl
  · split
    · simp [State.closePoll]
    · rfl

@[simp] theorem State.pollList_estopLink (s : State) : s.estopLink.link.pollList = s.link.pollList := by
  unfold State.estopLink Link.oweHalt
  split
  · rfl
  · split
    · simp only [State.closePoll, State.link_modLink]
      split <;> simp [Link.abortLine] <;> repeat' (first | rfl | split)
    · simp only [State.link_modLink]; split <;> rfl

/-- What a delivery touches: the tables, the link and the count of free values. -/
theorem State.takeDelivery_spec (s : State) :
    s.takeDelivery.nodeMap = s.nodeMap ∧ s.takeDelivery.safety = s.safety ∧ s.takeDelivery.port = s.port ∧
      s.takeDelivery.now = s.now ∧ s.takeDelivery.pending = s.pending ∧ s.takeDelivery.freeCount = s.freeCount + 1 ∧
      s.takeDelivery.link.pollList = s.link.pollList := by
  unfold State.takeDelivery State.deliverEstop
  have hg := fun t : State => t.estopGroups_tables
  have hl := fun t : State => t.estopLink_kept
  split <;> dsimp only
  · simp [(hg _).nodeMap, (hg _).safety, (hg _).port, (hg _).now, (hg _).pending, (hg _).link, (hl s).port, (hl s).now,
      (hl s).pending]
  · simp [(hg _).nodeMap, (hg _).safety, (hg _).link, (hl _).port, (hl _).now, (hl _).pending, (hg _).port, (hg _).now,
      (hg _).pending]

/-- With no assertion waiting there is nothing to deliver. -/
theorem State.deliverWaiting_none {s : State} (h : s.safety.estopWaiting = false) : s.deliverWaiting = s := by
  simp [State.deliverWaiting, h]

/-- What the delivery of a waiting assertion leaves. -/
theorem State.deliverWaiting_spec (s : State) :
    s.deliverWaiting.nodeMap = s.nodeMap ∧ s.deliverWaiting.safety = { s.safety with estopWaiting := false } ∧
      s.deliverWaiting.port = s.port ∧ s.deliverWaiting.now = s.now ∧ s.deliverWaiting.pending = s.pending ∧
      s.deliverWaiting.link.pollList = s.link.pollList := by
  unfold State.deliverWaiting
  split
  · obtain ⟨h1, h2, h3, h4, h5, -, h7⟩ :=
      State.takeDelivery_spec { s with safety := { s.safety with estopWaiting := false } }
    exact ⟨h1, h2, h3, h4, h5, h7⟩
  · next h =>
    have hf : s.safety.estopWaiting = false := by simpa using h
    refine ⟨rfl, ?_, rfl, rfl, rfl, rfl⟩
    rw [← hf]

/-! ### The poll list's events (R143, R147, R153) -/

/-- A slot that leaves the poll list leaves it, and the address map, the lines and the port stay. -/
theorem State.leavePollList_spec (s : State) (i : Slot) :
    (s.leavePollList i).link.pollList = removeSlot i s.link.pollList ∧ (s.leavePollList i).nodeMap = s.nodeMap ∧
      (s.leavePollList i).safety = s.safety ∧ s.PortKept (s.leavePollList i) := by
  unfold State.leavePollList
  dsimp only
  split
  · split
    · exact ⟨rfl, rfl, rfl, rfl, rfl, rfl, rfl, rfl⟩
    · exact ⟨rfl, rfl, rfl, rfl, rfl, rfl, rfl, rfl⟩
  · exact ⟨by simp, by simp, by simp, (State.PortKept.modLink ..).trans (State.completeIdleRound_kept _)⟩
  · exact ⟨by simp, by simp, by simp, (State.PortKept.modLink ..).trans (State.completeIdleRound_kept _)⟩

/-- A slot that enters the poll list enters it; the tables, the lines and the port stay. -/
theorem State.enterPollList_spec (s : State) (i : Slot) :
    (s.enterPollList i).link.pollList = insertSlot i s.link.pollList ∧ (s.enterPollList i).slots = s.slots ∧
      (s.enterPollList i).groups = s.groups ∧ (s.enterPollList i).nodeMap = s.nodeMap ∧
      (s.enterPollList i).safety = s.safety ∧ s.PortKept (s.enterPollList i) := by
  unfold State.enterPollList
  dsimp only
  split <;> exact ⟨rfl, rfl, rfl, rfl, rfl, rfl, rfl, rfl, rfl, rfl⟩

/-- A record that leaves its slot: its address leaves the map, its slot the poll list. -/
theorem State.leaveSlot_spec (s : State) (i : Slot) (h : Hoist) (cause : Release) :
    (s.leaveSlot i h cause).nodeMap = removeAddress h.address s.nodeMap ∧
      (s.leaveSlot i h cause).link.pollList = removeSlot i s.link.pollList ∧
      (s.leaveSlot i h cause).safety = s.safety ∧ s.PortKept (s.leaveSlot i h cause) := by
  unfold State.leaveSlot
  dsimp only
  obtain ⟨h1, h2, h3, h4⟩ := State.leavePollList_spec
    { s.modSlot i fun e => { e with record := none, release := cause, releasedAddress := some h.address } with
      nodeMap := removeAddress h.address
        (s.modSlot i fun e => { e with record := none, release := cause, releasedAddress := some h.address }).nodeMap } i
  exact ⟨h2.trans (by simp), h1.trans (by simp), h3.trans (by simp),
    State.PortKept.trans (t := { s.modSlot i fun e =>
      { e with record := none, release := cause, releasedAddress := some h.address } with
      nodeMap := removeAddress h.address
        (s.modSlot i fun e => { e with record := none, release := cause, releasedAddress := some h.address }).nodeMap })
      ⟨rfl, rfl, rfl, rfl, rfl⟩ h4⟩

/-- A record that leaves its slot, whole, in the words of the statements. -/
theorem State.leaveSlot_eq (s : State) (i : Slot) (h : Hoist) (cause : Release) :
    s.leaveSlot i h cause = s.slotReleased i h cause := by
  have hr : ∀ l : List Slot, removeSlot i l = l.filter fun j => decide (j ≠ i) := fun l => by
    simp only [removeSlot, bne, ne_eq, decide_not]; rfl
  have ha : ∀ m, removeAddress h.address m = m.filter fun e => decide (e.1 ≠ h.address) := fun m => by
    simp only [removeAddress, bne, ne_eq, decide_not]; rfl
  unfold State.leaveSlot State.leavePollList State.slotReleased
  simp only [State.modLink, hr, ha, State.modSlot, State.setSlot, State.slot]
  split
  · next hb => simp [hb]
  · next hb =>
    simp only [hb, State.completeIdleRound, State.completeIfDone, Option.map_eq_none_iff, Link.nextSlot_none,
      State.completeRound_eq_roundCompleted, true_and]
    by_cases h1 : s.link.poll = none ∧ s.eventsWaiting = none
    · simp only [h1, and_self, if_true, true_and]
    · rw [if_neg h1, if_neg fun x => h1 ⟨x.1, x.2.1⟩]
  · next hb => simp [hb, State.completeIdleRound]

/-! ### The jog end (R133) -/

/-- The end of a jog, or nothing where no hoist jogs. -/
theorem State.endJog_cases (s : State) (cause : JogEndCause) :
    (s.safety.jogSlot = none ∧ s.endJog cause = s) ∨ ∃ i, s.safety.jogSlot = some i ∧
      s.endJog cause = (({ s with
        safety := { s.safety with jogSlot := none, jogTimer := none, lastJogEnd := some ⟨i, cause⟩ } } : State).modRecord i
          Hoist.endJog).slotAttention i := by
  unfold State.endJog
  cases h : s.safety.jogSlot with
  | none => exact .inl ⟨rfl, rfl⟩
  | some i => exact .inr ⟨i, rfl, rfl⟩

theorem State.endJog_kept (s : State) (cause : JogEndCause) : s.PortKept (s.endJog cause) := by
  rcases s.endJog_cases cause with ⟨-, h⟩ | ⟨i, -, h⟩ <;> rw [h]
  · exact .refl s
  · exact ⟨rfl, rfl, rfl, rfl, rfl⟩

/-! ### The current and accrued sets (R103, R104) -/

/-- A write of the current set of a slot with a record. -/
theorem SlotEntry.writeCurrent_record {e : SlotEntry} {h : Hoist} (hr : e.record = some h) (new : CondSet) :
    (e.writeCurrent new).record = some { h with current := new, accrued := h.accrued.union new } := by
  simp [SlotEntry.writeCurrent, hr]

/-- A write of the current set of an empty slot writes nothing. -/
theorem SlotEntry.writeCurrent_none {e : SlotEntry} (hr : e.record = none) (new : CondSet) : e.writeCurrent new = e := by
  simp [SlotEntry.writeCurrent, hr]

/-- A write of the current set leaves the slot's own fields but its attention. -/
theorem SlotEntry.writeCurrent_slot (e : SlotEntry) (new : CondSet) :
    (e.writeCurrent new).release = e.release ∧ (e.writeCurrent new).releasedAddress = e.releasedAddress ∧
      (e.attention = true → (e.writeCurrent new).attention = true) := by
  unfold SlotEntry.writeCurrent
  split
  · exact ⟨rfl, rfl, id⟩
  · exact ⟨rfl, rfl, fun h => by simp [h]⟩

/-- A condition that leaves the current set: what stays in the set joins the accrued set, and the slot's own fields but its
attention stay. -/
theorem SlotEntry.removeCurrent_spec (e : SlotEntry) (c : Cond) :
    (e.removeCurrent c).record = e.record.map (fun h => { h with
      current := h.current.remove c
      accrued := h.accrued.union (h.current.remove c) }) ∧
    (e.removeCurrent c).release = e.release ∧ (e.removeCurrent c).releasedAddress = e.releasedAddress ∧
    (e.attention = true → (e.removeCurrent c).attention = true) := by
  unfold SlotEntry.removeCurrent
  split
  · next h => simp [h]
  · next h => exact ⟨by simp [SlotEntry.writeCurrent_record h, h], e.writeCurrent_slot _⟩

/-! ### The evaluation (R71) -/

/-- An evaluation writes the tracking fields alone. -/
theorem State.evaluation_fields (s : State) (h : Hoist) :
    let r := (s.evaluation h).hoist
    r = { h with
      deviation := r.deviation, landed := r.landed, demand := r.demand, direction := r.direction,
      baseline := r.baseline } := by
  unfold State.evaluation
  split
  · split
    · unfold Hoist.evaluateMoving
      split <;> rfl
    · rfl
  · rfl
  all_goals rfl

/-- The conditions that an evaluation finds are in canonical form. -/
theorem State.evaluation_wf (s : State) (h : Hoist) : (s.evaluation h).found.wf := by
  have h1 : h.evaluateAtRest.found.wf := by
    unfold Hoist.evaluateAtRest; dsimp only; apply CondSet.wf_ofTest
  have h2 : h.evaluateJog.found.wf := by
    unfold Hoist.evaluateJog; dsimp only; apply CondSet.wf_ofTest
  unfold State.evaluation
  split
  · split
    · unfold Hoist.evaluateMoving
      split
      · dsimp only; unfold Hoist.movingFindings; apply CondSet.wf_ofTest
      · exact h1
    · exact h1
  · exact h2
  all_goals exact h1

end Sys2Proof.Machine
end

