-- ==== Sys2Proof/WellFormed.lean ====
section
/-! DEFINITION. Which operands a row of the table can carry: HOLD and HALT of a group against HOLD_8 and HALT_8, an
unknown command byte against the command table, and a frame that a byte gap ended early against a whole frame.
Every command has a meaning on ill-formed operands too (bytes are bytes). -/

namespace Sys2Proof

/-- A frame that a gap can end: at least one byte, and not yet the expected length of its kind (R149). -/
def endsEarly : List Byte → Bool
  | [] => false
  | head :: rest =>
    match replyLength head with
    | some n => decide (rest.length + 1 < n)
    | none => true

/-- The operands are ones that the row can carry. -/
def Instr.WellFormed : Instr → Bool
  | .unknownCommandByte b => b != nullByteValue && b != continueByteValue && (ConsoleCode.ofByte b).isNone
  | .hold group => group != 8
  | .halt group => group != 8
  | .replyByteGapExpiry bytes => endsEarly bytes
  | _ => true

end Sys2Proof
end

