-- ==== Sys2Proof/Tests/Slice0.lean ====
section
/-! SUPPORT. The model's own tests: worked cases and tables of the spec on small states, the ill-formed operands that
`Instr.WellFormed` refuses, and for each statement with premises a state and operands that meet them, at the boundaries
of its clauses. -/

namespace Sys2Proof.Tests

open Sys2Proof.Machine

/-! ### A small rig -/

/-- The cue of worked case A (chapter 3). -/
def cueA : Cue := ⟨2010, 20, 100, .console⟩

/-- A ready hoist at 2,000.0 mm in group 0, at node address 5. -/
def hoistA : Hoist :=
  { Hoist.admitted 5 0 9000 0 with
    state := .ready, group := some 0, ratedLoad := some 1000, ratedSpeed := some 67, height := some 20000,
    load := some 480, nodeFlags := some 0x81 }

/-- Its neighbour at node address 6. -/
def hoistB : Hoist := { hoistA with address := 6 }

/-- The two hoists as members of a moving group. -/
def moveA : Hoist := { hoistA with state := .moving }
def moveB : Hoist := { hoistB with state := .moving }

/-- An idle group with the cue of case A queued. -/
def idleG : Group := { Group.reset with state := .idle, queue := [cueA] }

def armedG : Group := { idleG with state := .armed, direction := some .up, cruise := some 20000 }

/-- The group of case A before its first step. -/
def movingG : Group :=
  { armedG with
    state := .moving, holdSource := some .console, holdTimer := some 300000, startRef := some 2000000,
    reference := some 2000000, stepTimer := some 20000 }

def stoppingG : Group :=
  { idleG with state := .stopping, stopCause := some .halt, reference := some 2000000, stopTimer := some 2000000 }

def settlingG : Group := { idleG with state := .settling, settleRemaining := 5 }

def faultedG : Group :=
  { idleG with state := .faulted, stopCause := some (.fault .dev), firstFault := some ⟨.dev, some 0, some 4, none⟩ }

/-- Two hoists in slots 0 and 1, the members of group 0; powered, a transaction open in the command phase, a round awaited
at fast pace. -/
def rig (g : Group) (a b : Hoist) : State :=
  { State.reset with
    slots := (State.reset.slots.set 0 ⟨some a, .none, none, false⟩).set 1 ⟨some b, .none, none, false⟩
    nodeMap := [(5, 0), (6, 1)]
    groups := State.reset.groups.set 0 { g with members := [0, 1] }
    link := { Link.reset with pollList := [0, 1], round := .between .fast, roundStart := some 0 }
    safety := { Safety.reset false false false with permit := true }
    port := { Port.reset true with phase := .command } }

/-- A rig in a round, with a poll of slot 0 in this stage. -/
def polling (s : State) (frame : PollFrame) (stage : PollStage) (line : LineActivity) : State :=
  { s with link := { s.link with
      round := .inRound, poll := some ⟨0, frame, true, false, 200, stage⟩, line := line } }

/-- The state after a command. -/
def run (c : Instr) (s : State) : State :=
  match exec c s with
  | .next t => t
  | .fault _ | .refused _ => State.reset

/-- The response that a command left in the port: status and data. -/
def answer (c : Instr) (s : State) : List Byte :=
  match (run c s).port.phase with
  | .response _ rest _ => rest
  | _ => []

/-! ### Members of the rig -/

theorem rig_everyMember {g : Group} {a b : Hoist} {p : Hoist → Prop} (ha : p a) (hb : p b) :
    (rig g a b).EveryMember 0 p := by
  intro i hi h hh
  rcases List.mem_cons.1 (show i ∈ [0, 1] from hi) with rfl | hi
  · cases (show some a = some h from hh); exact ha
  · cases List.mem_singleton.1 hi
    cases (show some b = some h from hh); exact hb

theorem rig_membersAll {g : Group} {a b : Hoist} {p : Hoist → Prop} (ha : p a) (hb : p b) :
    (rig g a b).MembersAll 0 p := by
  intro i hi
  rcases List.mem_cons.1 (show i ∈ [0, 1] from hi) with rfl | hi
  · exact ⟨a, rfl, ha⟩
  · cases List.mem_singleton.1 hi
    exact ⟨b, rfl, hb⟩

theorem rig_someMember {g : Group} {a b : Hoist} {p : Hoist → Prop} (ha : p a) : (rig g a b).SomeMember 0 p :=
  ⟨0, List.mem_cons_self, a, rfl, ha⟩

/-! ### Ill-formed operands -/

/-- Bytes of the command table are no unknown command byte (R166, R169), HOLD and HALT name the jog by rows of their own,
and a frame that a gap ends is not whole. -/
theorem test_wellFormed :
    Instr.WellFormed (.unknownCommandByte 0x00) = false ∧ Instr.WellFormed (.unknownCommandByte 0x5A) = false ∧
      Instr.WellFormed (.unknownCommandByte 0x33) = false ∧ Instr.WellFormed (.unknownCommandByte 0xA5) = true ∧
      Instr.WellFormed (.hold 8) = false ∧ Instr.WellFormed (.hold 7) = true ∧ Instr.WellFormed (.halt 8) = false ∧
      Instr.WellFormed (.replyByteGapExpiry []) = false ∧
      Instr.WellFormed (.replyByteGapExpiry [0x45, 0, 0, 0, 0, 0, 0, 0]) = false ∧
      Instr.WellFormed (.replyByteGapExpiry [0x45, 0, 0, 0, 0, 0, 0]) = true := by decide

/-- No row of the table has bits. -/
theorem test_decodeTableWord : decodeTableWord 8 0x33 = none ∧ (State.reset.withFetchWord 8 0x33) = State.reset := by
  decide

/-! ### Worked cases -/

/-- The head of the two frames of chapter 10's worked frame, and a CRC of R140 worked by hand for HALT_ALL's one byte. -/
theorem test_workedFrame :
    (pollRunBytes { hoistA with address := 12, state := .moving, demand := 319, direction := .up } true).take 4 =
      [0x0C, 0x85, 0x01, 0x3F] ∧ haltAllBytes.take 1 = [0xBF] ∧ haltAllBytes.length = 3 := by decide

/-- Case A, steps 1, 10, 26, 33 and 34. -/
theorem test_caseA :
    (movingG.advanceStep .up 2000000 cueA 20000).reference = some 2000040 ∧
      ({ movingG with refSpeed := 18000 }.advanceStep .up 2001800 cueA 20000).reference = some 2002200 ∧
      ({ movingG with refSpeed := 20000 }.advanceStep .up 2008200 cueA 20000).reference = some 2008560 ∧
      ({ movingG with refSpeed := 6000 }.advanceStep .up 2009880 cueA 20000).reference = some 2009980 ∧
      ({ movingG with refSpeed := 5000 }.advanceStep .up 2009980 cueA 20000).arrived = true := by decide

/-- Case B: the residue after steps 1 to 3. -/
theorem test_caseB :
    let g : Group := { movingG with settings := { Settings.reset with stepPeriod := 10 } }
    let c : Cue := ⟨9000, 300, 15, .console⟩
    let g1 := g.advanceStep .up 0 c 67000
    let g2 := g1.advanceStep .up 1 c 67000
    let g3 := g2.advanceStep .up 4 c 67000
    g1.residue = 500 ∧ g2.residue = 500 ∧ g2.reference = some 4 ∧ g3.residue = 0 ∧ g3.reference = some 9 := by decide

/-- Case C, step 25: the latch comes first. -/
theorem test_caseC :
    let s := rig { movingG with reference := some 2007800, refSpeed := 20000, stagedSpeed := some 15, stagedTarget := some 2012 }
      { hoistA with state := .moving } { hoistB with state := .moving }
    let g := (run (.stepTimerExpiry 0) s).group 0
    g.reference = some 2008100 ∧ g.refSpeed = 15000 ∧ g.cruise = some 15000 ∧ g.cruiseLimited = false ∧
      g.stagedTarget = none ∧ g.head.map (·.target) = some 2012 := by decide

/-- Case D: a start that lies at its target arrives at once. -/
theorem test_caseD :
    let g := { armedG with direction := some .down, queue := [⟨1500, 20, 100, .cue0⟩] }
    let s := rig g { hoistA with height := some 14998 } { hoistB with height := some 14996 }
    let t := run (.cueRisingEdge .cue0) s
    (t.group 0).startRef = some 1499700 ∧ (t.group 0).reference = some 1500000 ∧ (t.group 0).arrived = true ∧
      (t.group 0).stepTimer = none ∧ (t.group 0).landingTimer = some 8000000 ∧ t.hoistState 0 = some .moving := by decide

/-- Case E: the four members' demands. -/
theorem test_caseE :
    let g : Group := { movingG with reference := some 2002200, refSpeed := 20000 }
    let ev (p rated : Nat) := { hoistA with state := .moving, height := some p, ratedSpeed := some rated }.evaluateMoving g true
    (ev 20015 67).hoist.demand = 319 ∧ (ev 20031 67).hoist.demand = 272 ∧ (ev 19992 20).hoist.demand = 1000 ∧
      (ev 19992 20).found.contains .satHigh = true ∧ (ev 20142 67).hoist.demand = 0 ∧
      (ev 20142 67).found.contains .satLow = true ∧ (ev 20142 67).found.contains .dev = false := by decide

/-- Case G: the landing outcomes of slots 10 and 11. -/
theorem test_caseG :
    let g : Group := { movingG with direction := some .down, reference := some 1200000, arrived := true }
    let ev (p : Nat) := { hoistA with state := .moving, height := some p }.evaluateMoving g true
    (ev 12013).hoist.landed = true ∧ (ev 11960).hoist.landed = false ∧ (ev 11960).hoist.demand = 0 ∧
      (ev 11960).found.contains .satLow = false := by decide

/-- Case H: the smallest overloading loads. -/
theorem test_caseH :
    let heavy (w rated pct : Nat) := { hoistA with load := some w, ratedLoad := some rated, overloadPct := pct }.overloaded
    heavy 1100 1000 110 = false ∧ heavy 1101 1000 110 = true ∧ heavy 137 125 110 = false ∧ heavy 138 125 110 = true ∧
      heavy 2500 2000 125 = false ∧ heavy 2501 2000 125 = true ∧ heavy 8191 2000 125 = true := by decide

/-- Case I: load shift and underload against a baseline of 480. -/
theorem test_caseI :
    let h (w : Nat) : Hoist := { hoistA with deviation := some 0, baseline := some 480, load := some w }
    (h 570).loadShifted = false ∧ (h 590).loadShifted = true ∧ (h 239).underloaded .down = true ∧
      (h 240).underloaded .down = false ∧ (h 239).underloaded .up = false := by decide

/-! ### The port's rows -/

/-- LOOK of the device's LINES after PORST_N (R142, R160, R183), and an undefined kind (R171). -/
theorem test_look :
    answer (.look 2 0 0) (run .csFallingEdge State.reset) =
      [0x00, 0x00, 0xFF, 0xFF, 0xFF, 0xFF, 0x00, 0xC8, 0x03, 0x00, 0x64] ∧
      answer (.look 3 0 0) (rig idleG hoistA hoistB) = [0x81] := by decide

/-- CONTINUE_BYTE wraps from slot 31 to slot 0 (R173). -/
theorem test_continue :
    let s := rig idleG hoistA hoistB
    (run .continueByte { s with port := { s.port with walk := some ⟨.hoistTrack, 31⟩ } }).port.walk =
      some ⟨.hoistTrack, 0⟩ := by decide

/-- NULL_BYTE keeps the command phase (R163), and an unknown byte answers STS_UNKNOWN (R166). -/
theorem test_nullByte : (run .nullByte (rig idleG hoistA hoistB)).port.phase = .command := by decide
theorem test_unknown : answer (.unknownCommandByte 0x7F) (rig idleG hoistA hoistB) = [0x80] := by decide

/-- SUMMARY: slot 1 and ESTOP_CLEARED (R175, R183). -/
theorem test_summary :
    let s := (rig idleG hoistA hoistB).slotAttention 1
    answer .summary { s with safety := { s.safety with estopCleared := true } } = [0, 0, 0, 0, 2, 0, 2] := by decide

/-- CLRATTN of the only flag set drops ATTN (R176, R177). -/
theorem test_clrattn :
    let s := (rig idleG hoistA hoistB).slotAttention 1
    s.attn = true ∧ (run (.clrattn 0 1) s).attn = false := by decide

/-- The last argument byte takes the command (R164), and a response byte returns the turnaround first (R165). -/
theorem test_argumentByte :
    let s := rig idleG hoistA hoistB
    ((run (.argumentByte 0) { s with port := { s.port with phase := .arguments .arm [] } }).group 0).state = .armed := by
  decide
theorem test_responseByte :
    let s := rig idleG hoistA hoistB
    let t := run (.responseByte 0x33) { s with port := { s.port with phase := .response 0xA5 [0x82] false } }
    t.port.miso = some 0xA5 ∧ t.port.phase = .response 0x82 [] false := by decide

/-- A rising CS_N drops an unfinished command (R168). -/
theorem test_csRisingEdge :
    let s := rig idleG hoistA hoistB
    (run .csRisingEdge { s with port := { s.port with phase := .arguments .flush [] } }).port.phase = .closed ∧
      (run .csFallingEdge State.reset).port.phase = .command := by decide

/-! ### The rows that name a slot -/

/-- ADMIT: STS_OK and the round that it starts (R8, R9, R147); an address in use (R8). -/
theorem test_admit :
    let t := run (.admitHoist 31 62 0 9000 0xF830) (run .csFallingEdge State.reset)
    t.hoistState 31 = some .admitting ∧ (t.record 31).map (·.trim) = some (-2000) ∧ t.nodeMap = [(62, 31)] ∧
      t.link.round = .inRound ∧ answer (.admitHoist 2 5 0 9000 0) (rig idleG hoistA hoistB) = [0x84] := by decide

/-- AMEND clamps its last four fields (R21). -/
theorem test_amend :
    let t := run (.amend 0 1 2 0 126 9 4 501) (rig idleG hoistA hoistB)
    (t.record 0).map (fun h => (h.overloadPct, h.underloadPct, h.shiftPct, h.jogDemand)) = some (125, 10, 5, 500) ∧
      answer (.amend 0 1 2 0 126 9 4 501) (rig idleG hoistA hoistB) = [0x01] := by decide

/-- The first frame after STOPPED waits for the gap after the last byte on the line alone (R147). -/
theorem test_admit_frameGap :
    let s := run .csFallingEdge State.reset
    let t := { s with link := { s.link with gap := 25, lineGap := 7 } }
    (run (.admitHoist 31 62 0 9000 0) t).link.gap = 7 := by decide

/-- RETIRE of a ready member: retiring, out of its group, still listed (R22, R34, R143). -/
theorem test_retire :
    let t := run (.retire 0) (rig idleG hoistA hoistB)
    t.hoistState 0 = some .retiring ∧ (t.group 0).members = [1] ∧ t.link.pollList = [0, 1] := by decide

/-- ASSIGN to another group, which becomes idle (R33). -/
theorem test_assign :
    let t := run (.assign 1 7) (rig idleG hoistA hoistB)
    (t.group 0).members = [0] ∧ (t.group 7).members = [1] ∧ (t.group 7).state = .idle := by decide

/-- CLRFLAGS keeps the current set (R119). -/
theorem test_clrflags :
    let t := run (.clrflags 0) (rig idleG { hoistA with accrued := [.limit, .dev], current := [.limit] } hoistB)
    (t.record 0).map (fun h => (h.accrued, h.current)) = some ([], [.limit]) := by decide

/-- JOG of chapter 7's worked case. -/
theorem test_jog :
    let t := run (.jog 0 1 12) (rig idleG { hoistA with height := some 19992, ratedSpeed := some 20 } hoistB)
    t.hoistState 0 = some .jogging ∧ (t.record 0).map (fun h => (h.demand, h.jogStart, h.jogDistance)) =
      some (250, some 19992, some 12) ∧ t.safety.jogSlot = some 0 ∧ t.safety.jogTimer = some 300000 := by decide

/-! ### The rows that name a group -/

/-- SETGROUP: a step period of 25 gives 20, of 5 gives 10 and of 105 gives 100 (R39). -/
theorem test_setgroup :
    let period (b : Byte) := ((run (.setgroup 0 25 16 3 7 b 5 300 2000 8000) (rig idleG hoistA hoistB)).group 0).settings.stepPeriod
    period 25 = 20 ∧ period 5 = 10 ∧ period 105 = 100 ∧
      answer (.setgroup 0 25 16 3 15 20 5 300 2000 8000) (rig idleG hoistA hoistB) = [0x01] := by decide

/-- QUEUE answers the position, and refuses the group's own number as its after-group (R36). -/
theorem test_queue :
    answer (.queue 0 2000 20 100 3 1) (rig idleG hoistA hoistB) = [0x00, 0x01] ∧
      answer (.queue 0 2000 20 100 3 0) (rig idleG hoistA hoistB) = [0x81] := by decide

/-- FLUSH leaves a faulted group faulted (R37). -/
theorem test_flush :
    let t := run (.flush 0) (rig faultedG hoistA hoistB)
    (t.group 0).queue = [] ∧ (t.group 0).state = .faulted := by decide

/-- ARM of R41's two members with trims 0 and 150; the second one's own target is 2,160. -/
theorem test_arm :
    let s := rig idleG hoistA { hoistB with trim := 150, height := some 21520, upper := 2160 }
    let g := (run (.arm 0) s).group 0
    g.state = .armed ∧ g.direction = some .up ∧ g.cruise = some 20000 ∧ g.cruiseLimited = false ∧
      answer (.arm 0) (rig idleG hoistA { hoistB with trim := 150, height := some 21520, upper := 2159 }) = [0x86] := by
  decide

/-- GO starts the move of case A (R44, R55). -/
theorem test_go :
    let t := run (.go 0) (rig armedG hoistA hoistB)
    (t.group 0).state = .moving ∧ (t.group 0).startRef = some 2000000 ∧ (t.group 0).stepTimer = some 20000 ∧
      (t.group 0).holdTimer = some 300000 ∧ t.hoistState 1 = some .moving := by decide

/-- HOLD restarts the full timeout, and an armed group refuses it (R126). -/
theorem test_hold :
    let m : Hoist := { hoistA with state := .moving }
    ((run (.hold 0) (rig { movingG with holdTimer := some 1 } m m)).group 0).holdTimer = some 300000 ∧
      answer (.hold 0) (rig armedG hoistA hoistB) = [0x82] := by decide

/-- HALT of an armed group keeps its head cue and names no cause (R47). -/
theorem test_halt :
    let g := (run (.halt 0) (rig armedG hoistA hoistB)).group 0
    g.state = .idle ∧ g.queue = [cueA] ∧ g.stopCause = none ∧ g.attention = false := by decide

/-- HOLD 8 without a jog is STS_STATE, HALT 8 STS_OK (R132). -/
theorem test_hold8 : answer .hold8 (rig idleG hoistA hoistB) = [0x82] := by decide
theorem test_halt8 : answer .halt8 (rig idleG hoistA hoistB) = [0x00] := by decide

/-- Case C's two commands, and a target behind the reference (R48, R49). -/
theorem test_staging :
    let m : Hoist := { hoistA with state := .moving }
    let s := rig { movingG with reference := some 2007800 } m m
    ((run (.stagespd 0 15) s).group 0).stagedSpeed = some 15 ∧ answer (.stagespd 0 100) s = [0x01] ∧
      ((run (.stagetgt 0 2012) s).group 0).stagedTarget = some 2012 ∧ answer (.stagetgt 0 2007) s = [0x89] := by decide

/-- ACKFAULT while a lost member stands (R118). -/
theorem test_ackfault :
    answer (.ackfault 0) (rig faultedG { hoistA with current := [.lost] } hoistB) = [0x88] ∧
      ((run (.ackfault 0) (rig faultedG hoistA hoistB)).group 0).state = .idle := by decide

/-! ### Lines, timers, resets -/

/-- PERMIT while ESTOP_N is asserted (R136). -/
theorem test_permit :
    let s := rig idleG hoistA hoistB
    answer .permit { s with safety := { s.safety with permit := false, estopAsserted := true } } = [0x82] := by decide

/-- RESTART is refused while a group is armed, and empties the queues of a quiet part (R52, R120). -/
theorem test_restart :
    answer .restart (rig armedG hoistA hoistB) = [0x82] ∧
      ((run .restart (rig faultedG hoistA hoistB)).group 0).queue = [] := by decide +kernel

/-- After a RESTART the accrued set starts again from the conditions of the next write (R26): the removal of COND_LINKERR by
a valid reply is such a write, and accrues what stays, with attention (R103, R104). -/
theorem test_restart_freshAccrual :
    let s := run .restart (rig faultedG { hoistA with
      current := [.nodeFault, .linkErr], accrued := [.nodeFault, .linkErr], missCount := 1 } hoistB)
    let e := (s.slot 0).removeCurrent .linkErr
    (s.record 0).map (·.accrued) = some [] ∧ (s.slot 0).attention = false ∧
      e.record.map (fun h => (h.current, h.accrued)) = some ([.nodeFault], [.nodeFault]) ∧ e.attention = true := by
  decide +kernel

/-- PORST_N with ESTOP_N low sets ESTOP_SEEN (R138). -/
theorem test_porst :
    let t := run (.porst true false false false) (rig armedG hoistA hoistB)
    t.attn = true ∧ t.link.pollList = [] ∧ t.mainsEn = false := by decide

/-- An assertion faults an armed group and cuts the power (R115, R134). -/
theorem test_estopAssertion :
    let t := run .estopAssertion (rig armedG hoistA hoistB)
    t.mainsEn = false ∧ (t.group 0).state = .faulted ∧ (t.group 0).stopCause = some (.fault .estop) ∧
      t.link.haltOwed = true := by decide

/-- A release sets ESTOP_CLEARED and no permit (R135). -/
theorem test_estopRelease :
    let t := run .estopRelease (run .estopAssertion (rig armedG hoistA hoistB))
    t.safety.estopCleared = true ∧ t.mainsEn = false := by decide

/-- A falling cue line stops the group that moves on it (R128). -/
theorem test_cueFallingEdge :
    let m : Hoist := { hoistA with state := .moving }
    let s := rig { movingG with holdSource := some .line1, holdTimer := none } m m
    let g := (run (.cueFallingEdge .cue1) { s with safety := { s.safety with cue1 := true } }).group 0
    g.state = .stopping ∧ g.stopCause = some .holdLost ∧ g.holdLost = true := by decide

/-- The timers of a group (R85, R114, R127). -/
theorem test_holdTimerExpiry :
    let m : Hoist := { hoistA with state := .moving }
    ((run (.holdTimerExpiry 0) (rig movingG m m)).group 0).stopCause = some .holdLost := by decide
theorem test_landingTimerExpiry :
    let m : Hoist := { hoistA with state := .moving, landed := true, deviation := some 1300 }
    let g := { movingG with arrived := true, stepTimer := none, landingTimer := some 1 }
    ((run (.landingTimerExpiry 0) (rig g m { m with landed := false, deviation := some (-4000) })).group 0).firstFault =
      some ⟨.landTime, some 1, some (-4000), some 2000000⟩ := by decide
theorem test_stopTimerExpiry :
    let g := (run (.stopTimerExpiry 0) (rig stoppingG hoistA { hoistB with state := .stopping })).group 0
    g.state = .faulted ∧ g.firstFault = some ⟨.stopTime, some 1, none, some 2000000⟩ ∧ g.stopTime = true := by decide

/-- The jog hold timer ends the jog with JEND_HOLD (R132, R133). -/
theorem test_jogHoldTimerExpiry :
    let t := run .jogHoldTimerExpiry (run (.jog 0 1 12) (rig idleG hoistA hoistB))
    t.safety.lastJogEnd = some ⟨0, .hold⟩ ∧ t.hoistState 0 = some .stopping ∧ (t.slot 0).attention = true := by decide

/-! ### The link -/

/-- LINKCFG: a timeout of 45 gives 50, of 205 gives 200 and of 1,234 gives 1,000 (R157). -/
theorem test_linkcfg :
    let wait (w : BitVec 16) := (run (.linkcfg w 3 100) (rig idleG hoistA hoistB)).link.responseTimeout
    wait 45 = 50 ∧ wait 205 = 200 ∧ wait 1234 = 1000 := by decide

/-- A round that starts with ESTOP_N asserted starts with HALT_ALL (R156). -/
theorem test_roundStart :
    let s := rig idleG hoistA hoistB
    (run .roundStart { s with safety := { s.safety with permit := false, estopAsserted := true } }).link.line =
      .sendingHalt 60 := by decide +kernel

/-- POLL takes the next listed slot above the last polled one and toggles its bit (R144, R150). -/
theorem test_poll :
    let s := rig idleG hoistA hoistB
    let t := run .poll { s with link := { s.link with round := .inRound, lastPolled := some 0 } }
    t.link.poll.map (·.slot) = some 1 ∧ (t.record 1).map (·.seqBit) = some true ∧
      (t.record 0).map (·.seqBit) = some false := by decide +kernel

/-- END_OF_POLL starts the response timer (R149), and HALT_ALL is sent when owed (R155). -/
theorem test_endOfPoll :
    let t := run .endOfPoll (polling (rig idleG hoistA hoistB) .run .sending (.sendingPoll [] 0))
    t.link.poll.map (·.stage) = some (.awaiting 200) ∧ t.linkDe = false := by decide
theorem test_haltAll :
    let s := rig idleG hoistA hoistB
    (run .haltAll { s with link := { s.link with haltOwed := true } }).linkDe = true := by decide

/-- LINK_TX of the byte 0x45: start bit, 1 0 1 0 0 0 1 0, stop bit, 2 µs each; nothing while LINK_DE is low (R140). -/
theorem test_linkTx :
    let s := rig idleG hoistA hoistB
    let level (elapsed : Nat) := State.linkTx { s with link := { s.link with line := .sendingPoll [0x45, 0x00] (40 - elapsed) } }
    (List.range 10).map (fun j => level (2 * j + 1)) =
        [some false, some true, some false, some true, some false, some false, some false, some true, some false, some true] ∧
      s.linkTx = none := by decide

/-- A start bit 9 µs after the poll is early, and one at 200 µs is in time (R149, R151). -/
theorem test_replyFirstStartBit :
    let s := polling (rig idleG hoistA hoistB) .run (.awaiting 100) .quiet
    (run (.replyFirstStartBit 9) s).link.poll.map (·.stage) = some (.receiving true) ∧
      (run (.replyFirstStartBit 200) s).link.poll.map (·.stage) = some (.receiving false) := by decide

/-- The third miss of chapter 8's worked case loses the record and stops its group with value 3. -/
theorem test_responseTimerExpiry :
    let m : Hoist := { hoistA with state := .moving, missCount := 2, seqBit := true, current := [.linkErr], lastMiss := some .timeout }
    let t := run .responseTimerExpiry (polling (rig movingG m { m with address := 6 }) .run (.awaiting 0) .quiet)
    t.hoistState 0 = some .lost ∧ (t.group 0).state = .stopping ∧
      (t.group 0).firstFault = some ⟨.lost, some 0, some 3, some 2000000⟩ := by decide

/-- After an expiry the next poll waits 30 µs (R149), a HALT_ALL does not: the poll ended 200 µs ago (R155). -/
theorem test_responseTimerExpiry_gaps :
    let t := run .responseTimerExpiry (polling (rig idleG hoistA hoistB) .run (.awaiting 0) .quiet)
    t.link.gap = 30 ∧ t.link.lineGap = 0 ∧
      (match step (run .estopAssertion t) with
        | .next u => u.pending
        | _ => []) = [.haltAll] := by decide +kernel

/-- A frame that ends after four bytes is MISS_LENGTH (R149, R151). -/
theorem test_replyByteGapExpiry :
    let t := run (.replyByteGapExpiry [5, 0x41, 0, 0]) (polling (rig idleG hoistA hoistB) .run (.receiving false) .quiet)
    (t.record 0).bind (·.lastMiss) = some .length ∧ t.link.poll = none := by decide

/-- The worked frame of chapter 10: the reply is taken, and with the other echo bit it is MISS_STALE. -/
theorem test_statusReply :
    let s := polling (rig movingG { hoistA with state := .moving, seqBit := true, address := 12 } hoistB) .run (.receiving false) .quiet
    let body : List Byte := [0x0C, 0x41, 0x00, 0x4E, 0x2F, 0x01, 0xE0]
    let t := run (.statusReply 12 0x41 20015 480 0x80 (crc16 (body ++ [0x80]))) s
    let u := run (.statusReply 12 0x41 20015 480 0x00 (crc16 (body ++ [0x00]))) s
    (t.record 0).map (fun h => (h.height, h.load, h.nodeFlags)) = some (some 20015, some 480, some 0x41) ∧
      (u.record 0).bind (·.lastMiss) = some .stale := by decide +kernel

/-- R185's other order: a reply that follows the fall of MAINS_EN finds its member HST_MOVING and holds demand 0 with no
saturation (R77); its condition event stops the group with COND_NODEFLT, and an E-stop that comes later changes no cause. -/
theorem test_statusReply_afterPowerCut :
    let h := { moveA with nodeFlags := some 0x03 }
    let ev := h.evaluateMoving { movingG with refSpeed := 20000 } false
    let s := (rig movingG { ev.hoist with current := ev.found } moveB).handCondition 0
    ev.hoist.demand = 0 ∧ ev.found = [.nodeFault] ∧ (s.group 0).stopCause = some (.fault .nodeFault) ∧
      ((run .estopAssertion s).group 0).stopCause = some (.fault .nodeFault) := by decide +kernel

/-- R87: the events of a member's reply wait, and a HALT comes first: the group stops with STOP_HALT and the events change
nothing but what was accrued; taken first, they stop it with their own cause. -/
theorem test_events_afterHalt :
    let s := { rig movingG moveA moveB with eventsWaiting := some ⟨0, 0, some (.nodeFault, some 3), false⟩ }
    let t := run (.halt 0) s
    (t.group 0).stopCause = some .halt ∧ t.deliverEvents = { t with eventsWaiting := none } ∧
      (s.deliverEvents.group 0).stopCause = some (.fault .nodeFault) := by decide +kernel

/-- An IDENT reply admits the hoist (R10). -/
theorem test_identReply :
    let s := polling (rig idleG { Hoist.admitted 5 0 9000 0 with seqBit := true } hoistB) .ident (.receiving false) .quiet
    let t := run (.identReply 5 0x81 1000 67 (crc16 [0x45, 0x81, 0x03, 0xE8, 0x00, 0x43])) s
    t.hoistState 0 = some .ready ∧ (t.record 0).bind (·.ratedSpeed) = some 67 ∧ (t.slot 0).attention = true := by
  decide +kernel

/-- An idle microsecond in which a step timer runs out puts its expiry into the queue (R30, log 2). -/
theorem test_tick :
    (match step { rig { movingG with stepTimer := some 1 } hoistA hoistB with
        link := { (rig movingG hoistA hoistB).link with haltOwed := false, gap := 9 } } with
      | .next t => t.pending
      | _ => []) = [.stepTimerExpiry 0] := by decide

/-- Case 8.11: in a fast round the first poll begins at the very microsecond in which the gap has passed and the round
starts, so 30 µs after the last reply (R144, R149). -/
theorem test_tick_fastRound :
    let due (s : State) := match step s with
      | .next t => (t.pending, t.now)
      | _ => ([], 0)
    let s := { rig idleG hoistA hoistB with now := 1472 }
    due s = ([.roundStart], 1472) ∧ due (run .roundStart s) = ([.poll], 1472) ∧
      due { s with link := { s.link with gap := 1 } } = ([.roundStart], 1473) := by decide +kernel

/-! ### Premises of the statements

For each statement with premises, a state and operands that meet them; where it has several clauses, at the boundaries of
each. -/

/-- The state after PORST_N meets the invariant, and every part of it that a statement takes as its premise; its step
answers a next state. -/
theorem test_premises_invariant : (State.afterReset false false false false).Inv ∧
    ∃ t, step { State.reset with pending := [.csFallingEdge] } = .next t := by
  have hr : ∀ i, (State.afterReset false false false false).record i = none := by decide
  have hg : ∀ k, (State.afterReset false false false false).group k = Group.reset := by decide
  refine ⟨⟨?_, ?_, ?_, ?_, ?_, ?_, ?_, ?_, ?_, ?_, ?_⟩, _, rfl⟩
  · intro i h hh; simp [hr] at hh
  · exact ⟨by decide, by decide, fun i h hh => by simp [hr] at hh⟩
  · decide
  · intro k; exact ⟨by revert k; decide, by revert k; decide⟩
  · intro k
    rw [hg k]
    refine ⟨by decide, ⟨by decide, (fun c hc => nomatch (show c ∈ ([] : List Cue) from hc)), by decide⟩, by decide, ?_, ?_, ?_⟩
    · simp [Group.MoveOk, Group.reset]
    · intro h; cases h
    · simp [Group.FaultOk, Group.reset]
  · refine ⟨fun k => ?_, fun i h hh => by simp [hr] at hh⟩
    simp only [State.MemberStatesOk, hg k, Group.reset]
  · refine ⟨by decide, fun _ => ⟨fun i h hh => by simp [hr] at hh, fun _ k => ?_⟩⟩
    rw [hg k]; decide
  · exact ⟨fun h => (by cases h), fun h => (by cases h)⟩
  · exact ⟨by decide, by decide⟩
  · refine ⟨by decide, rfl, ⟨rfl, rfl, rfl⟩, ?_⟩
    intro p hp; cases hp
  · refine ⟨by decide, by decide, trivial, by decide, ?_⟩
    intro w hw; cases hw

/-- StepRunsFrontCommand and PorstResetsEveryBlock have no premise; IdleStepTicksClock takes an empty queue, with nothing
that waits: a round and, at slow pace, its very due time, a poll and a HALT_ALL that are due, and no frame due. -/
theorem test_premises_idle :
    let s := rig idleG hoistA hoistB
    let l := { s.link with round := .between .slow, roundStart := some 7 }
    s.pending = [] ∧ s.safety.estopWaiting = false ∧ s.eventsWaiting = none ∧ s.link.poll = none ∧ s.link.line = .quiet ∧
      s.link.gap = 0 ∧ s.link.round = .between .fast ∧ s.link.haltOwed = false ∧
      (∀ start ∈ l.roundStart, start + l.idleInterval * 1000 ≤ 100007) ∧
      (¬ ∀ start ∈ l.roundStart, start + l.idleInterval * 1000 ≤ 100006) ∧
      (∃ j ∈ s.link.pollList, ∀ m ∈ ({ s.link with lastPolled := some 0 } : Link).lastPolled, m < j) ∧
      (¬ ∃ j ∈ s.link.pollList, ∀ m ∈ ({ s.link with lastPolled := some 1 } : Link).lastPolled, m < j) ∧
      s.link.lineGap = 0 ∧ State.reset.link.round = .stopped ∧ State.reset.link.haltOwed = false := by
  refine ⟨rfl, rfl, rfl, rfl, rfl, rfl, rfl, rfl, fun n h => (by cases h; decide), fun h => absurd (h 7 rfl) (by decide),
    ⟨1, by decide, fun m h => (by cases h; decide)⟩, fun ⟨j, hj, h⟩ => ?_, rfl, rfl, rfl⟩
  have := h 1 rfl
  revert j
  decide

/-- CommandRowEqualsItsBytes: a row with a byte of arguments, at slow pace in a quiet part; an arguments phase of its command
with nothing begun, with one of two bytes begun, and of another command; the closed and the ignoring phase. -/
theorem test_premises_commandRow :
    let s := { rig idleG hoistA hoistB with link := { (rig idleG hoistA hoistB).link with round := .between .slow } }
    consoleBytes (.flush 0) = some [0x32, 0] ∧ consoleBytes .nullByte = some [0x00] ∧ s.port.phase = .command ∧
      s.fastCondition = false ∧
      (let p := run (.argumentByte 0x32) s
       p.port.phase = .arguments .flush [] ∧ consoleBytes (.flush 0) = some (ConsoleCode.flush.toByte :: ([] ++ [0]))) ∧
      (let p := run (.argumentByte 4) (run (.argumentByte 0x23) s)
       p.port.phase = .arguments .assign [4] ∧ consoleBytes (.assign 4 7) = some (ConsoleCode.assign.toByte :: ([4] ++ [7])) ∧
        consoleBytes (.assign 5 7) ≠ some (ConsoleCode.assign.toByte :: ([4] ++ [7])) ∧ p.port.phase ≠ .command) ∧
      State.reset.port.phase = .closed ∧
      (run (.responseByte 0) (run (.responseByte 0) (run (.unknownCommandByte 0x13) s))).port.phase = .ignoring := by
  decide +kernel

/-- LookReadsNamedRecord: the last slot, the last group by the cursor, and the device by any index; then a kind, a block
and an index that name nothing. -/
theorem test_premises_look :
    let p : Port := { (rig idleG hoistA hoistB).port with cursorBlock := .groupQueue, cursorStart := 7 }
    p.phase = .command ∧ p.indexNames .hoistTrack 31 31 ∧ p.indexNames .groupQueue 0xFF 7 ∧ p.indexNames .deviceLines 0x55 0 ∧
      (∀ (b : LookBlock) (n : Nat), (3 : Byte) = b.kind.code → (0 : Byte) = b.code → ¬ p.indexNames b 0 n) ∧
      (∀ (b : LookBlock) (n : Nat), (0 : Byte) = b.kind.code → (0 : Byte) = b.code → ¬ p.indexNames b 32 n) := by
  refine ⟨rfl, ⟨by decide, .inl rfl⟩, ⟨by decide, .inr (.inl ⟨rfl, rfl⟩)⟩, ⟨by decide, .inr (.inr rfl)⟩, ?_, ?_⟩
  · intro b n h; cases b <;> exact absurd h (by decide)
  · intro b n h h'
    cases b <;> first | exact absurd h (by decide) | exact absurd h' (by decide) | skip
    rintro ⟨h1, h2 | ⟨h2, -⟩ | h2⟩
    · have : (32 : Byte).toNat = 32 := by decide
      simp only [LookBlock.kind, LookKind.count] at h1
      omega
    · exact absurd h2 (by decide)
    · exact absurd h2 (by decide)

/-- ContinueWalksRecords: no walk, and a walk at the last group. -/
theorem test_premises_continue :
    let p := (rig idleG hoistA hoistB).port
    p.phase = .command ∧ (∀ w ∈ p.walk, w.index < w.block.kind.count) ∧
      ∀ w ∈ ({ p with walk := some ⟨.groupState, 7⟩ } : Port).walk, w.index < w.block.kind.count := by
  refine ⟨rfl, fun w hw => (by cases hw), fun w hw => ?_⟩
  cases hw; decide

/-- SummaryShowsEveryFlag, PermitAssertsMainsEn and ClrattnClearsNamedFlag: the command phase, both levels of ESTOP_N,
and the indices and kinds on both sides of their bounds. -/
theorem test_premises_port :
    (rig idleG hoistA hoistB).port.phase = .command ∧ (rig idleG hoistA hoistB).safety.estopAsserted = false ∧
      (run .estopAssertion (rig idleG hoistA hoistB)).safety.estopAsserted = true ∧
      (run .estopAssertion (rig idleG hoistA hoistB)).port.phase = .command ∧ (31 : Byte).toNat = (31 : Slot).val ∧
      32 ≤ (32 : Byte).toNat ∧ (7 : Byte).toNat = (7 : GroupId).val ∧ 8 ≤ (8 : Byte).toNat ∧ 3 ≤ (3 : Byte).toNat := by
  decide

/-- BytesActByPhase: an unknown byte, a command with arguments, an argument that is not the last, a response, and, by a
command that is refused and by CS_N, the ignoring and the closed phase. -/
theorem test_premises_bytes :
    (0x13 : Byte) ≠ 0x00 ∧ (0x13 : Byte) ≠ 0x5A ∧ (∀ c : ConsoleCode, c.toByte ≠ 0x13) ∧ 0 < ConsoleCode.flush.argCount ∧
      ([] : List Byte).length + 1 < ConsoleCode.assign.argCount ∧
      ({ (rig idleG hoistA hoistB).port with phase := .arguments .assign [] } : Port).phase = .arguments .assign [] ∧
      ({ (rig idleG hoistA hoistB).port with phase := .response 0xA5 [0] false } : Port).phase = .response 0xA5 [0] false ∧
      (run (.responseByte 0) (run (.responseByte 0) (run (.unknownCommandByte 0x13) (rig idleG hoistA hoistB)))).port.phase =
        .ignoring ∧
      State.reset.port.phase = .closed := by
  refine ⟨by decide, by decide, ?_, by decide, by decide, rfl, rfl, by decide, rfl⟩
  intro c; cases c <;> decide

/-- ChipSelectOpensAndCloses: both levels of CS_N. -/
theorem test_premises_chipSelect : State.reset.port.csLow = false ∧ (rig idleG hoistA hoistB).port.csLow = true := by decide

/-- AdmitCreatesRecord: the last slot, the highest address, both limits and the trim at their bounds. -/
theorem test_premises_admit :
    let s := rig idleG hoistA hoistB
    s.port.phase = .command ∧ (31 : Byte).toNat = (31 : Slot).val ∧ s.record 31 = none ∧ 1 ≤ (62 : Byte).toNat ∧
      (62 : Byte).toNat ≤ 62 ∧ (∀ e ∈ s.nodeMap, e.1 ≠ (62 : Byte).toNat) ∧ (49999 : BitVec 16).toNat < (50000 : BitVec 16).toNat ∧
      (50000 : BitVec 16).toNat ≤ 50000 ∧ -2000 ≤ (0xF830 : BitVec 16).toInt ∧ (0xF830 : BitVec 16).toInt ≤ 2000 := by
  decide

/-- AdmitRefusesInOrder: each refusal at the bound of its check. -/
theorem test_premises_admitRefused :
    let s := rig idleG hoistA hoistB
    s.port.phase = .command ∧ 32 ≤ (32 : Byte).toNat ∧ s.record 0 ≠ none ∧ s.record 31 = none ∧ 63 ≤ (63 : Byte).toNat ∧
      (∃ e ∈ s.nodeMap, e.1 = (5 : Byte).toNat) ∧ 50000 < (50001 : BitVec 16).toNat ∧
      (7 : BitVec 16).toNat ≤ (7 : BitVec 16).toNat ∧ (0xF82F : BitVec 16).toInt < -2000 ∧ 2000 < (2001 : BitVec 16).toInt := by
  decide

/-- AmendWritesSevenFields: an empty slot, a record in another state, and one of an idle group with limits on both sides
of their check. -/
theorem test_premises_amend :
    let s := rig idleG hoistA { hoistB with state := .retiring, group := none }
    s.port.phase = .command ∧ s.record 31 = none ∧ s.record 0 = some hoistA ∧ hoistA.state = .ready ∧
      (∀ k ∈ hoistA.group, (s.group k).state = .idle ∨ (s.group k).state = .faulted) ∧
      s.hoistState 1 = some .retiring ∧ (0 : BitVec 16).toNat < (50000 : BitVec 16).toNat ∧
      ¬ (50000 : BitVec 16).toNat < (50000 : BitVec 16).toNat := by
  refine ⟨rfl, by decide, by decide, rfl, fun k hk => ?_, by decide, by decide, by decide⟩
  cases hk; exact .inl rfl

/-- RetireByHoistState: a ready record, a lost one with no poll open outside a round, an admitting one, a moving one. -/
theorem test_premises_retire :
    let s := rig idleG hoistA { hoistB with state := .lost }
    s.port.phase = .command ∧ s.record 0 = some hoistA ∧ s.hoistState 1 = some .lost ∧
      (∀ k ∈ hoistA.group, (s.group k).state = .empty ∨ (s.group k).state = .idle ∨ (s.group k).state = .faulted) ∧
      s.link.round ≠ .inRound ∧
      (run (.admitHoist 31 62 0 9000 0) s).hoistState 31 = some .admitting ∧
      (rig movingG moveA moveB).hoistState 0 = some .moving := by
  refine ⟨rfl, by decide, by decide, fun k hk => ?_, by decide, by decide, by decide⟩
  cases hk; exact .inr (.inl rfl)

/-- AssignMovesMembership: no group, an empty group, the present group, an armed one. -/
theorem test_premises_assign :
    let s := rig idleG hoistA hoistB
    s.port.phase = .command ∧ 9 ≤ (9 : Byte).toNat ∧ (8 : Byte).toNat = 8 ∧ (7 : Byte).toNat = (7 : GroupId).val ∧
      s.record 0 = some hoistA ∧ (s.group 7).state = .empty ∧ hoistA.group ≠ some 7 ∧ hoistA.group = some 0 ∧
      ((rig armedG hoistA hoistB).group 0).state = .armed := by decide

/-- SetgroupWritesSettings, FlushEmptiesQueue and HaltByGroupState, by the state of the group. -/
theorem test_premises_byGroupState :
    (rig idleG hoistA hoistB).port.phase = .command ∧ ((rig idleG hoistA hoistB).group 0).state = .idle ∧
      ((rig faultedG hoistA hoistB).group 0).state = .faulted ∧ (State.reset.group 7).state = .empty ∧
      ((rig armedG hoistA hoistB).group 0).state = .armed ∧ ((rig movingG moveA moveB).group 0).state = .moving ∧
      ((rig stoppingG hoistA hoistB).group 0).state = .stopping ∧ ((rig settlingG hoistA hoistB).group 0).state = .settling ∧
      9 ≤ (9 : Byte).toNat := by decide

/-- QueueAppendsCue: each source, the highest target, a full queue and one with room. -/
theorem test_premises_queue :
    let s := rig { idleG with queue := [cueA, cueA, cueA, cueA] } hoistA hoistB
    (50000 : BitVec 16).toNat ≤ 50000 ∧ 50000 < (50001 : BitVec 16).toNat ∧ 4 ≤ (4 : Byte).toNat ∧
      (∃ j : GroupId, (7 : Byte).toNat = j.val ∧ j ≠ 0 ∧ StartSource.after 7 = .after j) ∧ 8 ≤ (8 : Byte).toNat ∧
      (0 : Byte).toNat = (0 : GroupId).val ∧ 4 ≤ (s.group 0).queue.length ∧
      ((rig idleG hoistA hoistB).group 0).queue.length < 4 := by decide

/-- ArmAcceptsLevelTruss: the two members of case A at the target's other side of the landing tolerance. -/
theorem test_premises_arm :
    let s := rig idleG hoistA hoistB
    let level := (s.normalHeights 0).sum.tdiv (s.normalHeights 0).length
    s.port.phase = .command ∧ (s.group 0).state = .idle ∧ (s.group 0).queue = [cueA] ∧ s.safety.permit = true ∧
      (s.group 0).pendingFault = none ∧ s.SlowestMember 0 67 ∧
      (s.MembersAll 0 fun h => h.state = .ready ∧ h.height.isSome = true ∧ (∃ f ∈ h.nodeFlags, f.getLsbD 0 = true) ∧
        (h.lower : Int) ≤ cueA.target + h.trim ∧ (cueA.target : Int) + h.trim ≤ h.upper) ∧
      (∀ n ∈ s.normalHeights 0, (n - level).natAbs ≤ (s.group 0).settings.levelTol * 1000) ∧
      (s.group 0).settings.landingTol * 1000 < ((cueA.target : Int) * 1000 - level).natAbs := by
  refine ⟨rfl, by decide, by decide, rfl, by decide, ⟨?_, 0, by decide, hoistA, by decide, by decide⟩, ?_, by decide, by decide⟩
  · refine rig_everyMember (p := fun h => ∀ v ∈ h.ratedSpeed, 67 ≤ v) ?_ ?_ <;> (intro v hv; cases hv; decide)
  · apply rig_membersAll <;> exact ⟨rfl, rfl, ⟨0x81, rfl, by decide⟩, by decide, by decide⟩

/-- An idle group whose members differ by more than the leveling tolerance. -/
def slanted : State := rig idleG hoistA { hoistB with height := some 20502 }
/-- An idle group whose next target is within the landing tolerance of its level. -/
def nearby : State := rig { idleG with queue := [{ cueA with target := 2003 }] } hoistA hoistB

/-- ArmRefusesInOrder: one state for each refusal. -/
theorem test_premises_armRefused :
    ((rig { idleG with queue := [] } hoistA hoistB).group 0).queue = [] ∧
      (run .estopAssertion (rig idleG hoistA hoistB)).safety.permit = false ∧
      ((rig { idleG with pendingFault := some ⟨.lost, 0, some 3⟩ } hoistA hoistB).group 0).pendingFault =
        some ⟨.lost, 0, some 3⟩ ∧
      (¬ (rig idleG { hoistA with state := .lost } hoistB).MembersAll 0 fun h => h.state = .ready ∧ h.height.isSome = true ∧
        ∃ f ∈ h.nodeFlags, f.getLsbD 0 = true) ∧
      (¬ (rig idleG { hoistA with upper := 2009 } hoistB).MembersAll 0 fun h =>
        (h.lower : Int) ≤ cueA.target + h.trim ∧ (cueA.target : Int) + h.trim ≤ h.upper) ∧
      (¬ ∀ n ∈ slanted.normalHeights 0, (n - (slanted.normalHeights 0).sum.tdiv (slanted.normalHeights 0).length).natAbs ≤
        (slanted.group 0).settings.levelTol * 1000) ∧
      (((2003 : Int) * 1000 - (nearby.normalHeights 0).sum.tdiv (nearby.normalHeights 0).length).natAbs ≤
        (nearby.group 0).settings.landingTol * 1000) := by
  refine ⟨by decide, by decide, by decide, fun h => ?_, fun h => ?_, by decide, by decide⟩
  · obtain ⟨r, hr, h1, -⟩ := h 0 (by decide)
    cases (show some { hoistA with state := HoistState.lost } = some r from hr); cases h1
  · obtain ⟨r, hr, -, h1⟩ := h 0 (by decide)
    cases (show some { hoistA with upper := 2009 } = some r from hr); exact absurd h1 (by decide)

/-- GoStartsArmedGroup and MoveStartSetsReference: the armed group of case A, and one that waits on a line. -/
theorem test_premises_start :
    let g := (rig armedG hoistA hoistB).group 0
    g.state = .armed ∧ g.queue = [cueA] ∧ cueA.source = .console ∧ g.direction = some .up ∧
      (∀ cue ∈ ({ armedG with queue := [{ cueA with source := .cue0 }] } : Group).queue.head?, cue.source ≠ .console) := by
  refine ⟨by decide, by decide, rfl, by decide, fun c hc => ?_⟩
  cases hc; decide

/-- HoldRestartsHoldTimer: a move that the console holds, and one that a line holds. -/
theorem test_premises_hold :
    ((rig movingG moveA moveB).group 0).holdSource = some .console ∧
      ¬ (((rig { movingG with holdSource := some .line0 } moveA moveB).group 0).state = .moving ∧
        ((rig { movingG with holdSource := some .line0 } moveA moveB).group 0).holdSource = some .console) := by decide

/-- JogHeldHaltedAndEnded: a jogging hoist in the jog slot, its timer running, and a part without a jog. -/
theorem test_premises_jogHeld :
    let s := run (.jog 0 1 500) (rig idleG hoistA hoistB)
    s.hoistState 0 = some .jogging ∧ s.safety.jogSlot = some 0 ∧ s.safety.jogTimer ≠ none ∧
      { s with port := { s.port with phase := .command } }.port.phase = .command ∧
      (∀ i, (rig idleG hoistA hoistB).hoistState i ≠ some .jogging) ∧ (rig idleG hoistA hoistB).safety.jogSlot = none := by
  decide

/-- StopSequenceEntersStopping: a member left to wait for, and none. -/
theorem test_premises_stop :
    ((rig movingG moveA moveB).group 0).state = .moving ∧
      ((rig movingG moveA moveB).SomeMember 0 fun h => h.state ≠ .ready ∧ h.state ≠ .lost) ∧
      ((rig movingG { moveA with state := .lost } { moveB with state := .lost }).EveryMember 0 fun h =>
        h.state = .ready ∨ h.state = .lost) :=
  ⟨by decide, rig_someMember ⟨by decide, by decide⟩, rig_everyMember (.inr rfl) (.inr rfl)⟩

/-- StagespdStagesCappedSpeed and StagetgtStagesTargetAhead: a moving group short of its target, targets on both sides
of each check. -/
theorem test_premises_staging :
    let s := rig movingG moveA { moveB with upper := 2011 }
    (s.group 0).state = .moving ∧ (s.group 0).arrived = false ∧ (s.group 0).direction = some .up ∧
      (s.group 0).reference = some 2000000 ∧ s.SlowestMember 0 67 ∧
      (s.MembersAll 0 fun h => (h.lower : Int) ≤ 2011 + h.trim ∧ (2011 : Int) + h.trim ≤ h.upper) ∧
      (¬ s.MembersAll 0 fun h => (h.lower : Int) ≤ 2012 + h.trim ∧ (2012 : Int) + h.trim ≤ h.upper) ∧
      (2000000 : Int) < 2001 * 1000 ∧ ¬ (2000000 : Int) < 2000 * 1000 := by
  refine ⟨by decide, by decide, by decide, by decide, ⟨?_, 0, by decide, moveA, by decide, by decide⟩, ?_, fun h => ?_,
    by decide, by decide⟩
  · refine rig_everyMember (p := fun h => ∀ v ∈ h.ratedSpeed, 67 ≤ v) ?_ ?_ <;> (intro v hv; cases hv; decide)
  · apply rig_membersAll <;> exact ⟨by decide, by decide⟩
  · obtain ⟨r, hr, -, h1⟩ := h 1 (by decide)
    cases (show some { moveB with upper := 2011 } = some r from hr); exact absurd h1 (by decide)

/-- AckfaultClearsFault: a faulted group with and without a stop-class condition current. -/
theorem test_premises_ackfault :
    ((rig faultedG hoistA hoistB).group 0).state = .faulted ∧
      ((rig faultedG hoistA hoistB).EveryMember 0 fun h => ∀ c ∈ h.current, c.condClass ≠ .stop) ∧
      ((rig faultedG { hoistA with current := [.lost] } hoistB).SomeMember 0 fun h => ∃ c ∈ h.current, c.condClass = .stop) :=
  ⟨by decide, rig_everyMember (by decide) (by decide), rig_someMember ⟨.lost, by decide, by decide⟩⟩

/-- JogStartsOrRefuses: the shortest and the longest jog, and each refusal at its bound. -/
theorem test_premises_jog :
    let s := rig idleG hoistA hoistB
    s.port.phase = .command ∧ s.record 0 = some hoistA ∧ hoistA.state = .ready ∧
      (∀ k ∈ hoistA.group, (s.group k).state = .empty ∨ (s.group k).state = .idle ∨ (s.group k).state = .faulted) ∧
      (∀ j, s.hoistState j ≠ some .jogging) ∧ s.safety.permit = true ∧ hoistA.height = some 20000 ∧
      ¬ ((∃ f ∈ hoistA.nodeFlags, f.getLsbD 5 = true) ∨ hoistA.upper * 10 ≤ 20000) ∧
      ({ hoistA with upper := 2000 } : Hoist).upper * 10 ≤ 20000 ∧ (500 : BitVec 16).toNat ≤ 500 ∧
      500 < (501 : BitVec 16).toNat ∧ (1 : BitVec 16).toNat = 1 := by
  refine ⟨rfl, by decide, rfl, fun k hk => ?_, by decide, rfl, rfl, ?_, by decide, by decide, by decide, by decide⟩
  · cases hk; exact .inr (.inl rfl)
  · rintro (⟨f, hf, h⟩ | h)
    · cases hf; exact absurd h (by decide)
    · exact absurd h (by decide)

/-- A quiet part with a ready hoist and a lost one. -/
def quietPart : State :=
  rig idleG { hoistA with missCount := 2, lastMiss := some .crc, current := [.linkErr] }
    { hoistB with state := .lost, missCount := 3 }

/-- RestartClearsHistory and LinkcfgWritesSettings: a quiet part with a ready and a lost hoist, thresholds on both sides
of its own, of which 1 loses the ready hoist of the idle group and 2, its miss count, does not, with and without a pending
fault; and a part with an armed group. -/
theorem test_premises_quiet :
    quietPart.port.phase = .command ∧ quietPart.Quiet ∧ ¬ (rig armedG hoistA hoistB).Quiet ∧
      quietPart.link.lossThreshold = 3 ∧ intoRange 1 7 (1 : Byte).toNat = 1 ∧ intoRange 1 7 (3 : Byte).toNat = 3 ∧
      intoRange 1 7 (4 : Byte).toNat = 4 ∧ (quietPart.record 0).map (·.missCount) = some 2 ∧
      quietPart.hoistState 0 = some .ready ∧ (1 : Nat) < 2 ∧ ¬ (2 : Nat) < 2 ∧ (quietPart.record 0).bind (·.group) = some 0 ∧
      quietPart.hoistState 1 = some .lost ∧ (quietPart.group 0).state = .idle ∧ (quietPart.group 0).pendingFault = none ∧
      ((rig { idleG with pendingFault := some ⟨.lost, 1, none⟩ } hoistA hoistB).group 0).pendingFault ≠ none := by
  refine ⟨rfl, ⟨by decide, fun i h hh => ?_⟩, fun h => absurd (h.1 0) (by decide), rfl, by decide, by decide, by decide,
    by decide, by decide, by decide, by decide, by decide, by decide, by decide, by decide, by decide⟩
  have hs : ∀ i, quietPart.hoistState i = none ∨ quietPart.hoistState i = some HoistState.ready ∨
      quietPart.hoistState i = some HoistState.lost := by decide
  have := hs i
  simp only [State.hoistState, Option.mem_def.1 hh, Option.map_some] at this
  simp only [reduceCtorEq, Option.some.injEq, false_or] at this
  exact this.elim .inl fun h => .inr (.inl h)

/-- EstopAssertionCutsPower, EstopReleaseKeepsPowerOff, EstopActsOnEveryGroup: both levels, and member sets as R31 has
them. -/
theorem test_premises_estop :
    let s := rig movingG moveA moveB
    s.safety.estopAsserted = false ∧ (run .estopAssertion s).safety.estopAsserted = true ∧
      ({ s.safety with estopWaiting := true } : Safety).estopWaiting = true ∧
      (s.group 0).state = .moving ∧ 0 ∈ (s.group 0).members ∧ s.MembersOk := by
  refine ⟨rfl, by decide, rfl, by decide, by decide, ?_⟩
  intro k
  revert k
  decide

/-- EstopAbortsPoll: no poll; a poll at each stage, with a slot left to poll and with none. -/
theorem test_premises_abort :
    let s := rig movingG moveA moveB
    s.link.poll = none ∧ (∀ left, s.link.line ≠ .sendingHalt left) ∧
      (polling s .run .sending (.sendingPoll [] 40)).link.round = .inRound ∧
      (∃ j ∈ (polling s .run (.awaiting 190) .quiet).link.pollList, (0 : Slot) < j) ∧
      (polling s .run (.receiving false) .quiet).link.poll = some ⟨0, .run, true, false, 200, .receiving false⟩ ∧
      (∀ j ∈ ({ s.link with pollList := [0] } : Link).pollList, j ≤ (0 : Slot)) := by
  refine ⟨rfl, ?_, rfl, by decide, rfl, by decide⟩
  intro left h; cases h

/-- CueEdgesStartAndStop: both levels of a line, a group that awaits it and one that moves on it. -/
theorem test_premises_cues :
    let s := rig { armedG with queue := [{ cueA with source := .cue1 }] } hoistA hoistB
    s.safety.cue1 = false ∧ (s.group 0).queue.head?.map (·.source) = some .cue1 ∧
      (run (.cueRisingEdge .cue1) s).safety.cue1 = true ∧
      ((run (.cueRisingEdge .cue1) s).group 0).holdSource = some .line1 ∧ s.MembersOk := by
  refine ⟨rfl, by decide, by decide, by decide, ?_⟩
  intro k; revert k; decide

/-- StepAdvancesReference and StepLatchesOrDiscards: case A far from and at its arrival, and a staged target ahead and on
the reference. -/
theorem test_premises_step :
    let g := (rig movingG moveA moveB).group 0
    g.stepTimer ≠ none ∧ g.direction = some .up ∧ g.reference = some 2000000 ∧ g.queue = [cueA] ∧ g.cruise = some 20000 ∧
      g.stagedTarget = none ∧ ({ movingG with stagedTarget := some 2001 } : Group).stagedTarget = some 2001 ∧
      (2000000 : Int) < 2001 * 1000 ∧ ¬ (2000000 : Int) < 2000 * 1000 ∧ (2000 * 20 + 0) / 1000 < 10000 ∧
      20 ≤ (5000 * 20 + 0) / 1000 ∧ (rig movingG moveA moveB).SlowestMember 0 67 := by
  refine ⟨by decide, by decide, by decide, by decide, by decide, by decide, rfl, by decide, by decide, by decide, by decide,
    ?_, 0, by decide, moveA, by decide, by decide⟩
  refine rig_everyMember (p := fun h => ∀ v ∈ h.ratedSpeed, 67 ≤ v) ?_ ?_ <;> (intro v hv; cases hv; decide)

/-- An arrived group whose members have landed. -/
def landedPart : State :=
  rig { movingG with arrived := true, stepTimer := none, landingTimer := some 0 } { moveA with landed := true }
    { moveB with landed := true }

/-- GroupTimersExpire: every member has landed, and the last one's landed event, which waits, ends the move. -/
theorem test_premises_landedFirst :
    let s := { landedPart with eventsWaiting := some ⟨0, 1, none, true⟩ }
    (s.group 0).landingTimer ≠ none ∧ (s.MembersAll 0 fun h => h.state = .moving ∧ h.landed = true) ∧
      (s.deliverEvents.group 0).landingTimer = none := by
  refine ⟨by decide, ?_, by decide +kernel⟩
  exact rig_membersAll (p := fun h => h.state = .moving ∧ h.landed = true) ⟨rfl, rfl⟩ ⟨rfl, rfl⟩

/-- R84: the completion of the round in which the arrival completed counts, also where the last landed event waits: the poll
ends the round, the completion waits behind the event, and the settling group has counted it. -/
theorem test_settle_afterWait :
    let s := { landedPart with eventsWaiting := some ⟨0, 1, none, true⟩, link := { landedPart.link with round := .inRound } }
    let t := s.endPoll 1 30
    t.link.round = .inRound ∧ (t.group 0).state = .moving ∧ (t.deliverEvents.group 0).state = .settling ∧
      (t.deliverEvents.group 0).settleRemaining = 4 ∧ t.deliverEvents.link.round = .between .fast := by decide +kernel

/-- GroupTimersExpire: the second member is the first that is not landed, and the first that is still stopping. -/
theorem test_premises_timers :
    let g := { movingG with arrived := true, stepTimer := none, landingTimer := some 0 }
    let s := rig g { moveA with landed := true } moveB
    let t := rig stoppingG hoistA { hoistB with state := .stopping }
    (s.group 0).holdTimer ≠ none ∧ (s.group 0).landingTimer ≠ none ∧ (s.group 0).members = [0] ++ 1 :: [] ∧
      (∀ j ∈ ([0] : List Slot), ∀ r ∈ s.record j, r.landed = true) ∧ s.record 1 = some moveB ∧ moveB.landed = false ∧
      (t.group 0).stopTimer ≠ none ∧ (∀ j ∈ ([0] : List Slot), ∀ r ∈ t.record j, r.state ≠ .stopping) ∧
      t.hoistState 1 = some .stopping := by
  refine ⟨by decide, by decide, by decide, fun j hj r hr => ?_, by decide, rfl, by decide, fun j hj r hr => ?_, by decide⟩
  · cases List.mem_singleton.1 hj
    cases (show some { moveA with landed := true } = some r from hr); rfl
  · cases List.mem_singleton.1 hj
    cases (show some hoistA = some r from hr); decide

/-- RoundStartsAndHaltAll: an awaited round with a free line, and a HALT_ALL owed. -/
theorem test_premises_round :
    let s := rig idleG hoistA hoistB
    s.link.round = .between .fast ∧ s.link.haltOwed = false ∧ s.link.poll = none ∧ s.link.line ≠ .discarding ∧
      ({ s.link with haltOwed := true } : Link).haltOwed = true := by decide

/-- PollFormsFrame: the second listed slot after the first, for a moving and for an admitting record; the first start bit
and the last stop bit of a frame of six bytes, and the last of HALT_ALL; those of a cut byte; and both lines
on which nothing is sent. -/
theorem test_premises_poll :
    let s := rig idleG hoistA hoistB
    let l : Link := { s.link with round := .inRound, lastPolled := some 0 }
    l.round = .inRound ∧ l.pollList = [0] ++ 1 :: [] ∧ (∀ j ∈ ([0] : List Slot), ∃ m ∈ l.lastPolled, j ≤ m) ∧
      (∀ m ∈ l.lastPolled, m < 1) ∧ s.record 1 = some hoistB ∧ hoistB.address < 64 ∧
      (Hoist.admitted 62 0 9000 0).state = .admitting ∧
      (polling s .run .sending (.sendingPoll (List.replicate 6 0) 120)).link.line =
        .sendingPoll (List.replicate 6 0) ((6 - 0) * 20 - (2 * 0 + 0)) ∧
      (polling s .run .sending (.sendingPoll (List.replicate 6 0) 1)).link.line =
        .sendingPoll (List.replicate 6 0) ((6 - 5) * 20 - (2 * 9 + 1)) ∧
      ({ s.link with line := .sendingHalt 1 } : Link).line = .sendingHalt ((haltAllBytes.length - 2) * 20 - (2 * 9 + 1)) ∧
      (State.deliverEvents { rig movingG moveA moveB with
        eventsWaiting := some ⟨0, 0, some (.nodeFault, some 3), false⟩ }).hoistState 1 = some .stopping ∧
      ({ s.link with line := .cutPoll 0x45 20 } : Link).line = .cutPoll 0x45 (20 - (2 * 0 + 0)) ∧
      ({ s.link with line := .cutPoll 0x45 1 } : Link).line = .cutPoll 0x45 (20 - (2 * 9 + 1)) ∧
      s.link.line = .quiet ∧ ({ s.link with line := .discarding } : Link).line = .discarding := by
  refine ⟨rfl, rfl, fun j hj => ⟨0, rfl, by rw [List.mem_singleton.1 hj]⟩, fun m hm => ?_, by decide, by decide, rfl, rfl,
    rfl, by decide, by decide +kernel, rfl, rfl, rfl, rfl⟩
  cases hm; decide

/-- ReplyWindowOpens: a poll being sent, a poll waiting, and start bits at 9, 10, 200 and 201 µs; a poll that was aborted. -/
theorem test_premises_window :
    let s := rig idleG hoistA hoistB
    (polling s .run .sending (.sendingPoll [] 1)).link.poll = some ⟨0, .run, true, false, 200, .sending⟩ ∧
      (polling s .run (.awaiting 200) .quiet).link.poll = some ⟨0, .run, true, false, 200, .awaiting 200⟩ ∧
      (200 : Nat) ≤ 200 ∧ (9 : Nat) < 10 ∧ ¬ (10 : Nat) < 10 ∧ (200 : Nat) < 201 ∧
      (polling s .run (.awaiting 200) .quiet).estopLink.link.poll = none := by decide

/-- StatusReplyTaken: the reply of the polled node with the bit sent and the highest height, for records in the states of
R13, and a record in no group. -/
theorem test_premises_status :
    let s := polling (rig movingG { moveA with seqBit := true } { hoistB with state := .retiring, group := none }) .run (.receiving false) .quiet
    s.link.poll = some ⟨0, .run, true, false, 200, .receiving false⟩ ∧ s.record 0 = some { moveA with seqBit := true } ∧
      moveA.state ≠ .admitting ∧ (5 : BitVec 6).toNat = moveA.address ∧ (0x80 : Byte).getLsbD 7 = true ∧
      (500000 : BitVec 24).toNat ≤ 500000 ∧ s.hoistState 1 = some .retiring ∧ (0x81 : Byte).getLsbD 7 = true ∧
      (0x81 : Byte).getLsbD 6 = false ∧ moveA.state ≠ .retiring ∧ moveA.state ≠ .jogging ∧
      ({ hoistA with state := .lost, group := none } : Hoist).group = none := by decide

/-- IdentReplyAdmits: the polled record is admitting; rated values at and beside their bounds. -/
theorem test_premises_ident :
    let h := Hoist.admitted 5 0 9000 0
    let s := polling (rig idleG h hoistB) .ident (.receiving false) .quiet
    s.link.poll = some ⟨0, .ident, true, false, 200, .receiving false⟩ ∧ s.record 0 = some h ∧ h.state = .admitting ∧
      (5 : BitVec 6).toNat = h.address ∧ h.current = [] ∧ h.accrued.wf ∧ 125 ≤ (125 : BitVec 16).toNat ∧
      (2000 : BitVec 16).toNat ≤ 2000 ∧ 10 ≤ (10 : BitVec 16).toNat ∧ (300 : BitVec 16).toNat ≤ 300 ∧
      ¬ 125 ≤ (124 : BitVec 16).toNat := by decide

/-- PollsEndWithoutReply: a poll waiting and a poll receiving, early or not, orphaned or not; frames one byte short; and
for each check of a whole frame operands on both sides of it; and the rest of a reply that an E-stop aborted. -/
theorem test_premises_noReply :
    let s := rig idleG hoistA hoistB
    (polling s .run (.awaiting 0) .quiet).link.poll = some ⟨0, .run, true, false, 200, .awaiting 0⟩ ∧
      (polling s .run (.receiving false) .quiet).link.poll = some ⟨0, .run, true, false, 200, .receiving false⟩ ∧
      s.record 0 = some hoistA ∧ (63 : Byte).toNat < 64 ∧ (List.replicate 8 (0 : Byte)).length < 9 ∧
      64 ≤ (64 : Byte).toNat ∧ (127 : Byte).toNat < 128 ∧ (List.replicate 6 (0 : Byte)).length < 7 ∧
      128 ≤ (128 : Byte).toNat ∧
      (({ (polling s .run (.awaiting 0) .quiet).link.poll.getD ⟨0, .run, true, false, 200, .sending⟩ with orphaned := true }
        : PollInFlight).orphaned = true) ∧
      (polling s .run (.receiving true) .quiet).link.poll = some ⟨0, .run, true, false, 200, .receiving true⟩ ∧
      (0 : BitVec 16) ≠ crc16 [5, 0x81, 0, 0, 0, 0, 0, 0x80] ∧ (5 : BitVec 6).toNat = hoistA.address ∧
      (4 : BitVec 6).toNat ≠ hoistA.address ∧ (0x80 : Byte).getLsbD 7 = true ∧ (0x7F : Byte).getLsbD 7 ≠ true ∧
      500000 < (500001 : BitVec 24).toNat ∧ ¬ 500000 < (500000 : BitVec 24).toNat ∧
      (polling s .ident (.receiving false) .quiet).link.poll.map (·.frame) = some .ident ∧
      (polling s .run (.receiving false) .quiet).estopLink.link.poll = none ∧
      (polling s .run (.receiving false) .quiet).estopLink.link.line = .discarding ∧ s.link.poll = none ∧
      s.link.line ≠ .discarding := by
  decide +kernel

/-- MissesCountToLoss: a count below and at the threshold after the miss, for records in each state of R154, a lost one
among them. -/
theorem test_premises_miss :
    let s := rig movingG { moveA with missCount := 2 } { hoistB with state := .retiring, missCount := 3 }
    s.record 0 = some { moveA with missCount := 2 } ∧ (2 : Nat) ≤ s.link.lossThreshold ∧
      min (2 + 1) s.link.lossThreshold = s.link.lossThreshold ∧ min (1 + 1) s.link.lossThreshold < s.link.lossThreshold ∧
      s.hoistState 1 = some .retiring ∧ (Hoist.admitted 5 0 9000 0).state = .admitting ∧
      (run (.jog 0 1 12) (rig idleG hoistA hoistB)).hoistState 0 = some .jogging ∧
      (run (.jog 0 1 12) (rig idleG hoistA hoistB)).safety.jogSlot = some 0 ∧ quietPart.hoistState 1 = some .lost ∧
      (quietPart.record 1).map (·.missCount) = some 3 ∧ (3 : Nat) ≤ quietPart.link.lossThreshold := by decide

/-- MovingMemberEvaluated: the member of case E, and one that has arrived at the edge of its landing tolerance; a record at
rest; a member with no event to hand and one with a condition to hand. -/
theorem test_premises_moving :
    moveA.state = .moving ∧ movingG.direction = some .up ∧ movingG.reference = some 2000000 ∧ moveA.height = some 20000 ∧
      moveA.ratedSpeed = some 67 ∧ ({ movingG with arrived := true } : Group).arrived = true ∧
      (3000 : Int).natAbs ≤ movingG.settings.landingTol * 1000 ∧ hoistA.state = .ready ∧
      (rig movingG moveA moveB).record 0 = some moveA ∧ (rig movingG moveA moveB).detected 0 moveA = none ∧
      (rig movingG moveA moveB).detected 0 { moveA with current := [.nodeFault] } ≠ none ∧ moveA.landed = false := by decide

/-- ConditionEventByGroupState, the evaluation's events: a member with no condition, and one with two of which the lower
code acts; a group whose members have all landed and one of whose has not; a jog at the end of its distance and one
short of it, and one with two stop-class conditions. -/
theorem test_premises_events :
    (rig movingG { moveA with current := [.nodeFault, .limit] } moveB).record 0 =
        some { moveA with current := [.nodeFault, .limit] } ∧
      (∀ d ∈ [Cond.nodeFault, .limit], Cond.nodeFault.code ≤ d.code) ∧ Cond.nodeFault.condClass = .stop ∧
      moveA.current = [] ∧ moveA.group = some 0 ∧ (landedPart.group 0).state = .moving ∧ (landedPart.group 0).arrived = true ∧
      (landedPart.MembersAll 0 fun h => h.state = .moving ∧ h.landed = true) ∧
      ¬ ((rig movingG moveA moveB).MembersAll 0 fun h => h.state = .moving ∧ h.landed = true) ∧
      (let s := run (.jog 0 1 12) (rig idleG hoistA hoistB)
       s.hoistState 0 = some .jogging ∧ s.safety.jogSlot = some 0 ∧ 12 * 1000 ≤ ((20120 : Int) - 20000).natAbs * 100 ∧
        ¬ 12 * 1000 ≤ ((20119 : Int) - 20000).natAbs * 100 ∧
        (s.record 0).map (fun h => (h.jogStart, h.jogDistance)) = some (some 20000, some 12)) := by
  refine ⟨by decide, by decide, by decide, rfl, rfl, rfl, rfl, rig_membersAll ⟨rfl, rfl⟩ ⟨rfl, rfl⟩, fun h => ?_, by decide⟩
  obtain ⟨r, hr, -, h1⟩ := h 0 (by decide)
  cases (show some moveA = some r from hr); cases h1

/-- ConditionEventByGroupState and RoundCompletionSettles: events that wait for a moving group, and for one that has stopped
since; a round that is done and one that is not. -/
theorem test_premises_eventsWaiting :
    let e : MemberEvents := ⟨0, 0, some (.nodeFault, some 3), true⟩
    ({ rig movingG moveA moveB with eventsWaiting := some e } : State).eventsWaiting = some e ∧
      (({ rig stoppingG hoistA { hoistB with state := .stopping } with eventsWaiting := some e } : State).group 0).state =
        .stopping ∧
      (let l := (rig movingG moveA moveB).link
       l.round ≠ .inRound ∧ (∀ j ∈ l.pollList, ∃ m ∈ ({ l with lastPolled := some 1 } : Link).lastPolled, j ≤ m)) := by
  refine ⟨rfl, by decide, by decide, fun j hj => ⟨1, rfl, ?_⟩⟩
  revert j; decide

/-- ConditionEventByGroupState: a group in each state, a stop that completes and one that waits. -/
theorem test_premises_condition :
    ((rig movingG moveA moveB).group 0).state = .moving ∧ ((rig armedG hoistA hoistB).group 0).state = .armed ∧
      ((rig settlingG hoistA hoistB).group 0).state = .settling ∧ ((rig idleG hoistA hoistB).group 0).pendingFault = none ∧
      ((rig { idleG with pendingFault := some ⟨.lost, 0, none⟩ } hoistA hoistB).group 0).pendingFault ≠ none ∧
      ((rig stoppingG hoistA hoistB).group 0).state = .stopping ∧
      ((rig stoppingG hoistA { hoistB with state := .lost }).EveryMember 0 fun h => h.state = .ready ∨ h.state = .lost) ∧
      ((rig stoppingG { hoistA with state := .stopping } hoistB).SomeMember 0 fun h => h.state ≠ .ready ∧ h.state ≠ .lost) :=
  ⟨by decide, by decide, by decide, by decide, by decide, by decide, rig_everyMember (.inl rfl) (.inr rfl),
    rig_someMember ⟨by decide, by decide⟩⟩

/-- A settling group at its last round, and a group that is chained after it. -/
def chainedPart : State :=
  let s := rig { settlingG with settleRemaining := 1 } hoistA hoistB
  { s with
    slots := s.slots.set 2 ⟨some { hoistA with address := 7, group := some 1 }, .none, none, false⟩
    groups := s.groups.set 1 { armedG with queue := [{ cueA with source := .after 0 }], members := [2] } }

/-- RoundCompletionSettles: a listed slot left and none left; a settling group before and at its last round; a group that
the round's completion starts. -/
theorem test_premises_completion :
    let s := rig settlingG hoistA hoistB
    (∃ j ∈ s.link.pollList, (0 : Slot) < j) ∧ (∀ j ∈ s.link.pollList, j ≤ (1 : Slot)) ∧ (s.group 0).state = .settling ∧
      2 ≤ (s.group 0).settleRemaining ∧ ({ settlingG with settleRemaining := 1 } : Group).settleRemaining = 1 ∧
      (s.group 1).state ≠ .settling ∧ (chainedPart.group 1).state = .armed ∧ (chainedPart.group 0).settleRemaining ≤ 1 ∧
      (chainedPart.group 0).state = .settling ∧
      (chainedPart.group 1).queue.head?.map (·.source) = some (.after 0) ∧ chainedPart.MembersOk := by
  refine ⟨by decide, by decide, by decide, by decide, rfl, by decide, by decide, by decide, by decide, by decide, ?_⟩
  intro k; revert k; decide

end Sys2Proof.Tests
end

/-! ## The state after PORST_N -/

namespace Sys2Proof.Machine

section Reset
variable (estopLow cue0 cue1 csLow : Bool)

@[simp] theorem State.slot_afterReset (i : Slot) :
    (State.afterReset estopLow cue0 cue1 csLow).slot i = SlotEntry.reset := by
  simp [State.afterReset, State.slot]

@[simp] theorem State.record_afterReset (i : Slot) : (State.afterReset estopLow cue0 cue1 csLow).record i = none := by
  simp [State.record, SlotEntry.reset]

@[simp] theorem State.group_afterReset (k : GroupId) :
    (State.afterReset estopLow cue0 cue1 csLow).group k = Group.reset := by
  simp [State.afterReset, State.group]

@[simp] theorem State.listed_afterReset : (State.afterReset estopLow cue0 cue1 csLow).listed = [] := by
  simp [State.listed]

@[simp] theorem State.naming_afterReset (k : GroupId) : (State.afterReset estopLow cue0 cue1 csLow).naming k = [] := by
  simp [State.naming]

/-- The summary of a part without attention flags is ESTOP_SEEN alone (R138, R177). -/
theorem State.attn_afterReset : (State.afterReset estopLow cue0 cue1 csLow).attn = estopLow := by
  simp [State.attn, SlotEntry.reset, Group.reset, State.afterReset, Safety.reset, State.slot, State.group]

end Reset

/-- A group record after PORST_N is in its ranges (R38, R51). -/
theorem Group.reset_ok (k : GroupId) : Group.reset.Ok k := by
  refine ⟨by decide, ⟨by decide, by simp [Group.reset], by simp [Group.reset]⟩, by simp [Group.TimersOk, Group.reset],
      ?_, ?_, ?_⟩
  · simp [Group.MoveOk, Group.reset]
  · simp [Group.ReferenceOk, Group.reset]
  · simp [Group.FaultOk, Group.reset]

/-- Settles O4: no record stands and no group is active, so each law holds of the reset values or of nothing. -/
theorem resetMeetsInvariant : Obligations.ResetMeetsInvariant := by
  intro estopLow cue0 cue1 csLow
  constructor
  case records => intro i h hi; simp at hi
  case nodeMap =>
    refine ⟨List.Pairwise.nil, ?_, ?_⟩
    · intro e he; cases he
    · intro i h hi; simp at hi
  case pollList => rw [State.PollListOk, State.listed_afterReset]; rfl
  case members => intro k; simp [Group.reset]
  case groups => intro k; rw [State.group_afterReset]; exact Group.reset_ok k
  case motion =>
    refine ⟨fun k => ?_, fun i h hi => ?_⟩
    · simp [State.MemberStatesOk, Group.reset]
    · simp at hi
  case power => exact ⟨fun _ => rfl, fun _ => ⟨fun i h hi => by simp at hi, fun _ k => by simp [Group.reset]⟩⟩
  case waiting => exact ⟨fun h => by simp [State.afterReset, Safety.reset] at h, fun h => by simp [State.afterReset] at h⟩
  case jog =>
    refine ⟨fun i => ?_, by simp [State.afterReset, Safety.reset]⟩
    simp only [State.hoistState, State.record_afterReset]
    simp [State.afterReset, Safety.reset]
  case link =>
    refine ⟨?_, ?_, ?_, ?_⟩
    · simp [Link.SettingsOk, State.afterReset, Link.reset]
    · simp [Link.LineOk, State.afterReset, Link.reset, LineActivity.sendsPoll]
    · simp [State.RoundOk, State.afterReset, Link.reset]
    · intro p hp; simp [State.afterReset, Link.reset] at hp
  case port => simp [Port.Ok, State.afterReset, Port.reset, LookBlock.kind, LookKind.count]

/-- Settles O3: PORST_N writes the reset state and keeps the model's own three fields (log 25). -/
theorem porstResetsEveryBlock : Obligations.PorstResetsEveryBlock := by
  intro estopLow cue0 cue1 csLow s
  refine ⟨_, rfl, fun i => State.slot_afterReset estopLow cue0 cue1 csLow i, rfl, rfl,
      fun k => State.group_afterReset estopLow cue0 cue1 csLow k, rfl, rfl, rfl,
    State.attn_afterReset estopLow cue0 cue1 csLow, rfl, rfl, rfl, rfl, rfl⟩

end Sys2Proof.Machine

/-! ## What GENG's work leaves: the frame of every group event -/

namespace Sys2Proof.Machine

/-- A change of the motion fields alone, of a record that stands ready or moves (R14 to R16). -/
structure Hoist.Motion (h r : Hoist) : Prop where
  fields : r = { h with
    state := r.state, demand := r.demand, direction := r.direction, deviation := r.deviation, landed := r.landed,
    baseline := r.baseline }
  before : h.state = .moving ∨ h.state = .ready
  after : r.state = .moving ∨ r.state = .ready ∨ r.state = .stopping

theorem Hoist.Motion.trans {h r u : Hoist} (a : h.Motion r) (b : r.Motion u) : h.Motion u :=
  ⟨by rw [b.fields, a.fields], a.before, b.after⟩

theorem Hoist.Motion.address {h r : Hoist} (a : h.Motion r) : r.address = h.address := by rw [a.fields]
theorem Hoist.Motion.group {h r : Hoist} (a : h.Motion r) : r.group = h.group := by rw [a.fields]
theorem Hoist.Motion.seqBit {h r : Hoist} (a : h.Motion r) : r.seqBit = h.seqBit := by rw [a.fields]

/-- Neither record is HST_ADMITTING, so the poll of either is a POLL_RUN. -/
theorem Hoist.Motion.pollFrame {h r : Hoist} (a : h.Motion r) : r.pollFrame = h.pollFrame := by
  have h1 : h.state ≠ .admitting := by rcases a.before with e | e <;> simp [e]
  have h2 : r.state ≠ .admitting := by rcases a.after with e | e | e <;> simp [e]
  simp [Hoist.pollFrame, h1, h2]

theorem Hoist.stop_motion {h : Hoist} (hs : h.state = .moving) : h.Motion h.stop := by
  constructor <;> simp [Hoist.stop, hs]

theorem Hoist.arrive_motion {h : Hoist} (hs : h.state = .moving) : h.Motion h.arrive := by
  constructor <;> simp [Hoist.arrive, hs]

theorem Hoist.startMove_motion {h : Hoist} (hs : h.state = .ready) : h.Motion h.startMove := by
  constructor <;> simp [Hoist.startMove, hs]

/-- The three transitions that a group gives its members: unchanged, or a change of motion. -/
theorem Hoist.stop_cases (h : Hoist) : h.stop = h ∨ h.Motion h.stop := by
  by_cases hs : h.state = .moving
  · exact .inr (Hoist.stop_motion hs)
  · exact .inl (by simp [Hoist.stop, hs])

theorem Hoist.arrive_cases (h : Hoist) : h.arrive = h ∨ h.Motion h.arrive := by
  by_cases hs : h.state = .moving
  · exact .inr (Hoist.arrive_motion hs)
  · exact .inl (by simp [Hoist.arrive, hs])

theorem Hoist.startMove_cases (h : Hoist) : h.startMove = h ∨ h.Motion h.startMove := by
  by_cases hs : h.state = .ready
  · exact .inr (Hoist.startMove_motion hs)
  · exact .inl (by simp [Hoist.startMove, hs])

/-- The member sets are as they were, and of a slot at most the motion fields of its record differ. -/
structure State.Moves (s t : State) : Prop where
  members : ∀ k, (t.group k).members = (s.group k).members
  slots : ∀ i, t.slot i = s.slot i ∨
    ∃ h r, s.record i = some h ∧ h.Motion r ∧ t.slot i = { s.slot i with record := some r }

namespace State.Moves

theorem refl (s : State) : s.Moves s := ⟨fun _ => rfl, fun _ => .inl rfl⟩

/-- A state with the same two tables. -/
theorem of_tables {s t : State} (hs : t.slots = s.slots) (hg : t.groups = s.groups) : s.Moves t :=
  ⟨fun k => by rw [State.group, hg]; rfl, fun i => .inl (by rw [State.slot, hs]; rfl)⟩

theorem trans {s t u : State} (a : s.Moves t) (b : t.Moves u) : s.Moves u := by
  refine ⟨fun k => (b.members k).trans (a.members k), fun i => ?_⟩
  rcases b.slots i with e | ⟨r, v, hr, hm, e⟩
  · rw [e]; exact a.slots i
  · rcases a.slots i with e' | ⟨h, w, hh, hm', e'⟩
    · exact .inr ⟨r, v, by rw [← hr]; simp [State.record, e'], hm, by rw [e, e']⟩
    · have : w = r := by simpa [State.record, e'] using hr
      subst this
      exact .inr ⟨h, v, hh, hm'.trans hm, by rw [e, e']⟩

variable {s t : State}

/-- A record after such a change. -/
theorem record (w : s.Moves t) (i : Slot) :
    t.record i = s.record i ∨ ∃ h r, s.record i = some h ∧ h.Motion r ∧ t.record i = some r := by
  rcases w.slots i with e | ⟨h, r, hh, hm, e⟩
  · exact .inl (by simp [State.record, e])
  · exact .inr ⟨h, r, hh, hm, by simp [State.record, e]⟩

/-- A record that neither stands ready nor moves is as before, with its slot. -/
theorem slot_eq (w : s.Moves t) {i : Slot} (hi : ∀ h ∈ s.record i, h.state ≠ .moving ∧ h.state ≠ .ready) :
    t.slot i = s.slot i := by
  rcases w.slots i with e | ⟨h, r, hh, hm, -⟩
  · exact e
  · obtain ⟨h1, h2⟩ := hi h hh
    rcases hm.before with e | e
    · exact absurd e h1
    · exact absurd e h2

/-- An empty slot is as before. -/
theorem slot_empty (w : s.Moves t) {i : Slot} (hi : s.record i = none) : t.slot i = s.slot i :=
  w.slot_eq fun h hh => by rw [hi] at hh; cases hh

/-- What no such change reaches in a record. -/
theorem map_record (w : s.Moves t) {α : Type} (p : Hoist → α) (hp : ∀ h r : Hoist, h.Motion r → p r = p h) (i : Slot) :
    (t.record i).map p = (s.record i).map p := by
  rcases w.record i with e | ⟨h, r, hh, hm, e⟩
  · rw [e]
  · rw [e, hh, Option.map_some, Option.map_some, hp h r hm]

end State.Moves

/-- The work of GENG on its groups and their members: the two tables alone, and there at most motion. -/
structure State.GroupWork (s t : State) : Prop extends s.Moves t where
  tables : s.TablesOnly t

namespace State.GroupWork

theorem refl (s : State) : s.GroupWork s := ⟨.refl s, .refl s⟩

theorem trans {s t u : State} (a : s.GroupWork t) (b : t.GroupWork u) : s.GroupWork u :=
  ⟨a.toMoves.trans b.toMoves, a.tables.trans b.tables⟩

theorem foldl {α : Type} (f : State → α → State) (h : ∀ (t : State) (a : α), t.GroupWork (f t a)) (l : List α)
    (s : State) : s.GroupWork (l.foldl f s) := by
  induction l generalizing s with
  | nil => exact .refl s
  | cons a l ih => exact (h s a).trans (ih _)

theorem modGroup (s : State) (k : GroupId) {f : Group → Group} (hf : ∀ g : Group, (f g).members = g.members) :
    s.GroupWork (s.modGroup k f) := by
  refine ⟨⟨fun j => ?_, fun _ => .inl rfl⟩, .modGroup ..⟩
  rw [State.group_modGroup]
  split
  · next h => subst h; exact hf _
  · rfl

theorem modMembers (s : State) (k : GroupId) {f : Hoist → Hoist} (hf : ∀ h : Hoist, f h = h ∨ h.Motion (f h)) :
    s.GroupWork (s.modMembers k f) := by
  refine ⟨⟨fun _ => by simp, fun i => ?_⟩, .modMembers ..⟩
  rw [State.slot_modMembers]
  split
  · cases hr : s.record i with
    | none => exact .inl (by rw [Option.map_none, ← hr]; rfl)
    | some h =>
      rcases hf h with e | e
      · exact .inl (by rw [Option.map_some, e, ← hr]; rfl)
      · exact .inr ⟨h, f h, rfl, e, rfl⟩
  · exact .inl rfl

end State.GroupWork

/-! ### Each of GENG's operations is such work -/

section Work
variable (s : State) (k : GroupId)

theorem State.testStop_work : s.GroupWork (s.testStop k) := by
  rcases s.testStop_cases k with ⟨h, -⟩ | ⟨h, -⟩ <;> rw [h]
  · exact .modGroup s k fun _ => rfl
  · exact .refl s

theorem State.enterStopping_work (cause : StopCause) (slot : Option Slot) (value : Option Int) :
    s.GroupWork (s.enterStopping k cause slot value) :=
  ((State.GroupWork.modGroup s k (f := fun g => g.beginStop cause slot value) fun _ => rfl).trans
    (.modMembers _ k Hoist.stop_cases)).trans (State.testStop_work _ k)

theorem Group.members_post (g : Group) (c : Cond) (i : Slot) (value : Option Int) :
    (g.post c i value).members = g.members := by
  unfold Group.post; split <;> rfl

theorem State.conditionEvent_work (i : Slot) (c : Cond) (value : Option Int) :
    s.GroupWork (s.conditionEvent k i c value) := by
  unfold State.conditionEvent
  split
  · exact s.enterStopping_work ..
  · exact .modGroup s k fun _ => rfl
  · exact .modGroup s k fun _ => rfl
  · exact .modGroup s k fun g => g.members_post ..
  all_goals exact .refl s

theorem State.lossEvent_work (i : Slot) (value : Option Int) : s.GroupWork (s.lossEvent k i value) := by
  unfold State.lossEvent
  split
  · exact s.testStop_work k
  · exact s.conditionEvent_work ..

theorem State.loseHold_work : s.GroupWork (s.loseHold k) :=
  (s.enterStopping_work k .holdLost none none).trans
    (State.GroupWork.modGroup _ k (f := fun g => { g with holdLost := true, attention := true }) fun _ => rfl)

theorem State.estopGroup_work : s.GroupWork (s.estopGroup k) := by
  unfold State.estopGroup
  split
  · exact s.enterStopping_work ..
  · exact .modGroup s k fun _ => rfl
  · exact .modGroup s k fun _ => rfl
  · split
    · exact .refl s
    · exact .modGroup s k fun _ => rfl
  all_goals exact .refl s

theorem State.estopGroups_work : s.GroupWork s.estopGroups := .foldl _ State.estopGroup_work _ s

theorem State.startMove_work : s.GroupWork (s.startMove k) := by
  rcases s.startMove_cases k with h | ⟨cue, dir, -, -, -, h⟩ <;> rw [h]
  · exact .refl s
  · refine State.GroupWork.trans (.modGroup s k ?_) (.modMembers _ k Hoist.startMove_cases)
    exact fun _ => rfl

theorem State.startAll_work (src : StartSource) : s.GroupWork (s.startAll src) := by
  refine .foldl _ (fun t k => ?_) _ s
  split
  · exact t.startMove_work k
  · exact .refl t

theorem State.settleRound_work : s.GroupWork (s.settleRound k) := by
  unfold State.settleRound
  split
  · split
    · refine State.GroupWork.trans (.modGroup s k ?_) (State.startAll_work ..)
      exact fun _ => rfl
    · refine .modGroup s k ?_
      exact fun _ => rfl
  · exact .refl s

theorem State.settleRounds_work : s.GroupWork s.settleRounds := .foldl _ State.settleRound_work _ s

theorem Group.members_arrive (g : Group) : g.arrive.members = g.members := by
  unfold Group.arrive; split <;> rfl

theorem State.landedEvent_work : s.GroupWork (s.landedEvent k) := by
  unfold State.landedEvent
  have h : s.GroupWork ((s.modGroup k Group.arrive).modMembers k Hoist.arrive) :=
    (State.GroupWork.modGroup s k Group.members_arrive).trans (.modMembers _ k Hoist.arrive_cases)
  split
  · dsimp only
    split
    · exact h.trans (State.startAll_work ..)
    · exact h
  · exact .refl s

theorem State.takeEvents_work (e : MemberEvents) : s.GroupWork (s.takeEvents e) := by
  unfold State.takeEvents
  have h : s.GroupWork (match e.condition with
      | some (c, value) => s.conditionEvent e.group e.slot c value
      | none => s) := by
    split
    · exact s.conditionEvent_work ..
    · exact .refl s
  dsimp only
  split
  · exact h.trans (State.landedEvent_work ..)
  · exact h

theorem State.landingExpiry_work : s.GroupWork (s.landingExpiry k) := s.enterStopping_work ..

theorem State.stopExpiry_work : s.GroupWork (s.stopExpiry k) := by
  unfold State.stopExpiry
  refine .modGroup s k ?_
  exact fun _ => rfl

theorem State.handCondition_work (i : Slot) : s.GroupWork (s.handCondition i) := by
  unfold State.handCondition
  split
  · exact .refl s
  · split
    · exact .refl s
    · split
      · exact .refl s
      · exact s.conditionEvent_work ..

theorem State.handLanded_work (k : Option GroupId) (before after : Bool) : s.GroupWork (s.handLanded k before after) := by
  unfold State.handLanded
  split
  · split
    · exact s.landedEvent_work _
    · exact .refl s
  · exact .refl s

theorem State.handStopped_work (k : Option GroupId) (stopped : Bool) : s.GroupWork (s.handStopped k stopped) := by
  unfold State.handStopped
  split
  · split
    · exact s.testStop_work _
    · exact .refl s
  · exact .refl s

end Work

/-! ### The operations of DLC that let GENG work -/

section Rounds
variable (s : State)

theorem State.repace_moves : s.Moves s.repace := .of_tables (by simp) (by simp)

theorem State.modLink_moves (f : Link → Link) : s.Moves (s.modLink f) := .of_tables rfl rfl

theorem State.completeRound_moves : s.Moves s.completeRound := by
  have h := s.settleRounds_work.toMoves
  rw [State.completeRound_eq]
  generalize s.settleRounds = t at h ⊢
  exact h.trans (.of_tables rfl rfl)

theorem State.completeIfDone_moves : s.Moves s.completeIfDone := by
  unfold State.completeIfDone
  split
  · exact s.completeRound_moves
  · exact .refl s

theorem State.completeIdleRound_moves : s.Moves s.completeIdleRound := by
  unfold State.completeIdleRound
  split
  · exact s.completeIfDone_moves
  · exact .refl s

theorem State.closePoll_moves (i : Slot) : s.Moves (s.closePoll i) :=
  (s.modLink_moves _).trans (State.completeIfDone_moves _)

theorem State.endPoll_moves (i : Slot) (rest : Nat) : s.Moves (s.endPoll i rest) := by
  unfold State.endPoll
  dsimp only
  split
  · exact s.modLink_moves _
  · exact (s.modLink_moves _).trans (State.completeIfDone_moves _)

theorem State.deliverEvents_moves : s.Moves s.deliverEvents := by
  unfold State.deliverEvents
  split
  · next e _ =>
    exact (State.Moves.of_tables (s := s) (t := { s with eventsWaiting := none }) rfl rfl).trans
      ((State.takeEvents_work _ e).toMoves.trans (State.completeIdleRound_moves _))
  · exact .refl s

theorem State.estopLink_moves : s.Moves s.estopLink := by
  unfold State.estopLink
  split
  · exact .refl s
  · split
    · exact ((s.modLink_moves _).trans (State.closePoll_moves ..)).trans (State.modLink_moves ..)
    · exact s.modLink_moves _

theorem State.takeDelivery_moves : s.Moves s.takeDelivery := by
  have h : s.Moves (s.deliverEstop s.linkFirst) := by
    unfold State.deliverEstop
    split
    · exact s.estopLink_moves.trans (State.estopGroups_work _).toMoves
    · exact s.estopGroups_work.toMoves.trans (State.estopLink_moves _)
  unfold State.takeDelivery
  generalize s.deliverEstop s.linkFirst = t at h ⊢
  exact h.trans (.of_tables rfl rfl)

theorem State.deliverWaiting_moves : s.Moves s.deliverWaiting := by
  unfold State.deliverWaiting
  split
  · exact (State.Moves.of_tables (s := s) (t := { s with safety := { s.safety with estopWaiting := false } }) rfl rfl).trans
      (State.takeDelivery_moves _)
  · exact .refl s

end Rounds

/-! ### The end of the walk does not matter to GENG and DLC -/

@[simp] theorem State.eventsWaiting_dropWalk (s : State) : s.dropWalk.eventsWaiting = s.eventsWaiting := rfl

theorem foldl_dropWalk {α : Type} (f : State → α → State) (hf : ∀ (t : State) (a : α), f t.dropWalk a = (f t a).dropWalk)
    (l : List α) (s : State) : l.foldl f s.dropWalk = (l.foldl f s).dropWalk := by
  induction l generalizing s with
  | nil => rfl
  | cons a l ih => rw [List.foldl_cons, List.foldl_cons, hf, ih]

theorem State.startAll_dropWalk (s : State) (src : StartSource) : s.dropWalk.startAll src = (s.startAll src).dropWalk := by
  refine foldl_dropWalk _ (fun t k => ?_) _ s
  rw [State.group_dropWalk, apply_ite State.dropWalk, State.startMove_dropWalk]

theorem State.settleRounds_dropWalk (s : State) : s.dropWalk.settleRounds = s.settleRounds.dropWalk := by
  refine foldl_dropWalk _ (fun t k => ?_) _ s
  unfold State.settleRound
  simp only [State.group_dropWalk, apply_ite State.dropWalk, State.modGroup_dropWalk, State.chainedStart,
    State.startAll_dropWalk]

theorem State.roundCompleted_dropWalk (s : State) : s.dropWalk.roundCompleted = s.roundCompleted.dropWalk := by
  unfold State.roundCompleted
  rw [State.settleRounds_dropWalk]
  generalize s.settleRounds = t
  rfl

theorem State.completeIdleRound_dropWalk (s : State) : s.dropWalk.completeIdleRound = s.completeIdleRound.dropWalk := by
  simp only [State.completeIdleRound, State.completeIfDone, State.completeRound_eq_roundCompleted,
    State.roundCompleted_dropWalk, State.link_dropWalk, State.eventsWaiting_dropWalk, apply_ite State.dropWalk]

theorem State.leavePollList_dropWalk (s : State) (i : Slot) :
    s.dropWalk.leavePollList i = (s.leavePollList i).dropWalk := by
  unfold State.leavePollList
  have hm : ∀ (t : State) (f : Link → Link), t.dropWalk.modLink f = (t.modLink f).dropWalk := fun _ _ => rfl
  rw [hm]
  generalize (s.modLink _) = t
  dsimp only
  cases hr : t.link.round with
  | between pace => simp only [State.link_dropWalk, hr, hm, apply_ite State.dropWalk]
  | inRound => simp only [State.link_dropWalk, hr, State.completeIdleRound_dropWalk]
  | stopped => simp only [State.link_dropWalk, hr, State.completeIdleRound_dropWalk]

/-- A record's leaving of its slot commutes with the end of the walk. -/
theorem State.leaveSlot_dropWalk (s : State) (i : Slot) (h : Hoist) (cause : Release) :
    s.dropWalk.leaveSlot i h cause = (s.leaveSlot i h cause).dropWalk := by
  unfold State.leaveSlot
  dsimp only
  rw [← State.leavePollList_dropWalk]
  rfl

/-- The completion of a round in a slot without a record. -/
theorem State.slot_roundCompleted {s : State} {i : Slot} (hr : s.record i = none) :
    s.roundCompleted.slot i = s.slot i := by
  have work := s.settleRounds_work
  unfold State.roundCompleted
  generalize s.settleRounds = t at work ⊢
  rw [State.slot_withLink]
  exact work.slot_eq fun h hh => by rw [hr] at hh; cases hh

/-- The slot that a record has left is empty, with its release fields; no group event changes it. -/
theorem State.slot_slotReleased_self (s : State) (i : Slot) (h : Hoist) (cause : Release) :
    (s.slotReleased i h cause).slot i =
      { s.slot i with record := none, release := cause, releasedAddress := some h.address } := by
  have hslot : ∀ (m : List (Nat × Slot)) (l : Link), ({ s with
      slots := s.slots.set i { s.slot i with record := none, release := cause, releasedAddress := some h.address }
      nodeMap := m, link := l } : State).slot i =
        { s.slot i with record := none, release := cause, releasedAddress := some h.address } := fun m l => by
    simp [State.slot]
  unfold State.slotReleased
  cases hr : s.link.round with
  | stopped => exact hslot _ _
  | between pace =>
    dsimp only
    split <;> exact hslot _ _
  | inRound =>
    dsimp only
    split
    · rw [State.slot_roundCompleted (by rw [State.record, hslot]), hslot]
    · exact hslot _ _

end Sys2Proof.Machine

/-! ## ADMIT, AMEND and RETIRE -/

namespace Sys2Proof.Machine

/-- The limit checks of ADMIT and AMEND, as numbers (R8, R21). -/
theorem limitsValid_iff (lower upper : Nat) (trim : Int) :
    limitsValid lower upper trim = true ↔ lower < upper ∧ upper ≤ 50000 ∧ -2000 ≤ trim ∧ trim ≤ 2000 := by
  simp only [limitsValid, Bool.and_eq_true, decide_eq_true_eq]
  simp only [Config.heightMax, Config.trimMax]
  omega

/-- A record's group satisfies a test, or the record has none. -/
theorem State.groupAllows_iff (s : State) (h : Hoist) (p : GroupState → Bool) :
    s.groupAllows h p = true ↔ ∀ k ∈ h.group, p (s.group k).state = true := by
  unfold State.groupAllows
  cases h.group <;> simp

/-- GST_EMPTY, GST_IDLE or GST_FAULTED (R32). -/
theorem GroupState.atRest_iff (st : GroupState) : st.atRest = true ↔ st = .empty ∨ st = .idle ∨ st = .faulted := by
  cases st <;> simp [GroupState.atRest]

/-- A refused command leaves the state as it is. -/
theorem complete_console_refused {s : State} {st : Status} {code : ConsoleCode} {args : List Byte}
    {owner : State → State × Answer} (hp : s.port.phase = .command)
    (h : owner s.dropWalk = (s.dropWalk, .plain st)) : complete (s.console code args owner) = .next (s.answering st []) :=
  complete_console hp h

@[simp] theorem State.slot_answering (s : State) (st : Status) (data : List Byte) (i : Slot) :
    (s.answering st data).slot i = s.slot i := State.slot_repace _ i

@[simp] theorem State.nodeMap_answering (s : State) (st : Status) (data : List Byte) :
    (s.answering st data).nodeMap = s.nodeMap := State.nodeMap_repace _

@[simp] theorem State.pollList_answering (s : State) (st : Status) (data : List Byte) :
    (s.answering st data).link.pollList = s.link.pollList := State.pollList_repace _

/-! ### ADMIT (R8, R9) -/

section Admit
variable {s : State} {slot address : Byte} {lower upper trim : BitVec 16}

theorem State.admitSlot_noSlot (h : 32 ≤ slot.toNat) :
    s.admitSlot slot address lower upper trim = (s, .plain .range) := by
  simp [State.admitSlot, slotOf_none h]

variable {i : Slot}

theorem State.admitSlot_occupied (h : slot.toNat = i.val) (hr : s.record i ≠ none) :
    s.admitSlot slot address lower upper trim = (s, .plain .state) := by
  simp [State.admitSlot, slotOf_eq h, Option.isSome_iff_ne_none, hr]

theorem State.admitSlot_badAddress (h : slot.toNat = i.val) (hr : s.record i = none)
    (ha : address.toNat = 0 ∨ 63 ≤ address.toNat) : s.admitSlot slot address lower upper trim = (s, .plain .range) := by
  have : address.toNat < 1 ∨ 62 < address.toNat := by omega
  simp only [State.admitSlot, slotOf_eq h, hr, Config.addrMin, Config.addrMax, if_pos this, Option.isSome_none,
    Bool.false_eq_true, if_false]

theorem State.admitSlot_duplicate (h : slot.toNat = i.val) (hr : s.record i = none) (h1 : 1 ≤ address.toNat)
    (h2 : address.toNat ≤ 62) (hd : ∃ e ∈ s.nodeMap, e.1 = address.toNat) :
    s.admitSlot slot address lower upper trim = (s, .plain .duplicate) := by
  have hl : (lookupAddress address.toNat s.nodeMap).isSome = true := by
    rw [Option.isSome_iff_ne_none, Ne, lookupAddress_none]
    push Not
    exact hd
  have : ¬ (address.toNat < 1 ∨ 62 < address.toNat) := by omega
  simp only [State.admitSlot, slotOf_eq h, hr, Config.addrMin, Config.addrMax, if_neg this, hl, Option.isSome_none,
    Bool.false_eq_true, if_false, if_true]

/-- The check of the limits comes last; a record that passes it is created (R8, R9). -/
theorem State.admitSlot_placed (h : slot.toNat = i.val) (hr : s.record i = none) (h1 : 1 ≤ address.toNat)
    (h2 : address.toNat ≤ 62) (hd : ∀ e ∈ s.nodeMap, e.1 ≠ address.toNat) :
    s.admitSlot slot address lower upper trim =
      if limitsValid lower.toNat upper.toNat trim.toInt = true then
        (({ s.modSlot i fun e =>
              { e with record := some (.admitted address.toNat lower.toNat upper.toNat trim.toInt), attention := false } with
            nodeMap := insertAddress address.toNat i s.nodeMap } : State).enterPollList i, .plain .ok)
      else (s, .plain .range) := by
  have hl : lookupAddress address.toNat s.nodeMap = none := (lookupAddress_none ..).2 hd
  have : ¬ (address.toNat < 1 ∨ 62 < address.toNat) := by omega
  simp only [State.admitSlot, slotOf_eq h, hr, Config.addrMin, Config.addrMax, if_neg this, hl, Option.isSome_none,
    Bool.false_eq_true, if_false, Bool.not_eq_true']
  cases limitsValid lower.toNat upper.toNat trim.toInt <;> rfl

end Admit

/-- Settles O20: each refusal is the owner's, in the order of R8's checks. -/
theorem admitRefusesInOrder : Obligations.AdmitRefusesInOrder := by
  intro s slot address lower upper trim hp
  refine ⟨fun hs => complete_console_refused hp (State.admitSlot_noSlot hs),
    fun i hi => ⟨fun hr => ?_, fun hr => ⟨fun ha => ?_, fun h1 h2 => ⟨fun hd => ?_, fun hd hb => ?_⟩⟩⟩⟩
  · exact complete_console_refused hp (State.admitSlot_occupied hi hr)
  · exact complete_console_refused hp (State.admitSlot_badAddress hi hr ha)
  · exact complete_console_refused hp (State.admitSlot_duplicate hi hr h1 h2 hd)
  · refine complete_console_refused hp ?_
    rw [State.admitSlot_placed (s := s.dropWalk) hi hr h1 h2 hd, if_neg]
    rw [limitsValid_iff]
    omega

/-- Settles O19: the checks pass, and the record is entered in the slot, the map and the list. -/
theorem admitCreatesRecord : Obligations.AdmitCreatesRecord := by
  intro s slot address lower upper trim i hp hi hr h1 h2 hd hl hu ht1 ht2
  refine complete_console hp ?_
  rw [State.admitSlot_placed (s := s.dropWalk) hi hr h1 h2 hd, if_pos ((limitsValid_iff ..).2 ⟨hl, hu, ht1, ht2⟩)]
  refine Prod.ext ?_ rfl
  unfold State.enterPollList
  cases hround : s.link.round with
  | stopped => simp [hround, State.startRound, State.modLink, State.modSlot, State.setSlot, State.dropWalk,
      State.modPort, Hoist.admitted, State.slot]
  | inRound => simp [hround, State.modLink, State.modSlot, State.setSlot, State.dropWalk, State.modPort,
      Hoist.admitted, State.slot]
  | between pace => simp [hround, State.modLink, State.modSlot, State.setSlot, State.dropWalk, State.modPort,
      Hoist.admitted, State.slot]

/-! ### AMEND (R21) -/

/-- AMEND of a record that stands in its place: the limits decide (R21). -/
theorem State.amend_placed {s : State} {slot : Byte} {lower upper trim : BitVec 16} {overload underload shift : Byte}
    {jogDemand : BitVec 16} {i : Slot} {h : Hoist} (hi : slot.toNat = i.val) (hr : s.record i = some h)
    (hs : h.state = .ready ∨ h.state = .lost)
    (hg : ∀ k ∈ h.group, (s.group k).state = .idle ∨ (s.group k).state = .faulted) :
    s.amend slot lower upper trim overload underload shift jogDemand =
      if limitsValid lower.toNat upper.toNat trim.toInt = true then
        (s.withRecord i { h with
            lower := lower.toNat
            upper := upper.toNat
            trim := trim.toInt
            overloadPct := intoRange 100 125 overload.toNat
            underloadPct := intoRange 10 90 underload.toNat
            shiftPct := intoRange 5 50 shift.toNat
            jogDemand := intoRange 50 500 jogDemand.toNat },
          .plain (if intoRange 100 125 overload.toNat = overload.toNat ∧ intoRange 10 90 underload.toNat = underload.toNat ∧
            intoRange 5 50 shift.toNat = shift.toNat ∧ intoRange 50 500 jogDemand.toNat = jogDemand.toNat then .ok
            else .clamped))
      else (s, .plain .range) := by
  have h1 : ¬ (h.state ≠ .ready ∧ h.state ≠ .lost) := by tauto
  have h2 : s.groupAllows h (fun g => g == .idle || g == .faulted) = true := by
    rw [State.groupAllows_iff]; intro k hk; simpa using hg k hk
  simp only [State.amend, slotOf_eq hi, hr, if_neg h1, h2, Bool.not_true, Bool.false_eq_true, if_false,
    clampTo_eq (show 100 ≤ 125 by omega), clampTo_eq (show 10 ≤ 90 by omega), clampTo_eq (show 5 ≤ 50 by omega),
    clampTo_eq (show 50 ≤ 500 by omega), State.modRecord_eq hr]
  cases limitsValid lower.toNat upper.toNat trim.toInt with
  | false => rfl
  | true =>
    simp only [Bool.not_true, Bool.false_eq_true, if_false, if_true, statusOf, Bool.or_eq_true, bne_iff_ne, ne_eq]
    congr 2
    split <;> split <;> first | rfl | (exfalso; tauto)

/-- Settles O21: the refusals in the order of R21's checks, and the write of an accepted AMEND. -/
theorem amendWritesSevenFields : Obligations.AmendWritesSevenFields := by
  intro s slot lower upper trim overload underload shift jogDemand hp
  refine ⟨fun hs => complete_console_refused hp ?_,
    fun i hi => ⟨fun hr => complete_console_refused hp ?_, fun h hr => ⟨fun hn => ?_, ?_, ?_⟩⟩⟩
  · simp [State.amend, slotOf_none hs]
  · simp [State.amend, slotOf_eq hi, hr]
  · refine complete_console_refused hp ?_
    have : (h.state ≠ .ready ∧ h.state ≠ .lost) ∨ s.dropWalk.groupAllows h
        (fun g => g == .idle || g == .faulted) = false := by
      rw [← Bool.not_eq_true, State.groupAllows_iff]
      by_contra hc
      push Not at hc
      exact hn ⟨by tauto, fun k hk => by simpa using hc.2 k hk⟩
    rcases this with h1 | h2
    · simp [State.amend, slotOf_eq hi, hr, h1]
    · simp [State.amend, slotOf_eq hi, hr, h2]
  · rintro ⟨hs, hg⟩ hl
    refine complete_console_refused hp ?_
    rw [State.amend_placed (s := s.dropWalk) hi hr hs hg, if_neg]
    rwa [limitsValid_iff]
  · rintro ⟨hs, hg⟩ hl
    refine complete_console hp ?_
    rw [State.amend_placed (s := s.dropWalk) hi hr hs hg, if_pos ((limitsValid_iff ..).2 hl)]
    rfl

/-! ### RETIRE (R22) -/

/-- The leaving of a member set in the words of the statements (R33, R34). -/
theorem Group.dropMember_eq (g : Group) (i : Slot) : g.dropMember i = g.without i := by
  have hr : removeSlot i g.members = g.members.filter fun j => decide (j ≠ i) := by
    simp only [removeSlot, bne, ne_eq, decide_not]; rfl
  unfold Group.dropMember Group.without Group.becomeEmpty Group.stopTimers
  rw [hr]
  generalize (g.members.filter fun j => decide (j ≠ i)) = rest
  cases rest <;> rfl

/-- A record leaves its group: the set loses the slot, the record its group. -/
theorem State.leaveGroup_eq {s : State} {i : Slot} {h : Hoist} (hr : s.record i = some h) :
    s.leaveGroup i = (s.withoutMember i h).withRecord i { h with group := none } := by
  unfold State.leaveGroup State.withoutMember
  rw [hr]
  cases hg : h.group with
  | none =>
    have hh : ({ h with group := none } : Hoist) = h := by rw [← hg]
    rw [hh]
    have := State.modRecord_eq hr id
    simp only [Option.bind_some, hg]
    refine State.ext_tables (fun j => ?_) (fun _ => rfl) rfl rfl rfl rfl rfl rfl rfl rfl
    rw [State.slot_withRecord]
    split
    · next e => subst e; rw [← hr]; rfl
    · rfl
  | some k =>
    simp only [Option.bind_some, hg, State.modGroup_eq, Group.dropMember_eq]
    exact State.modRecord_eq (s := s.withGroup k ((s.group k).without i)) hr _

@[simp] theorem State.withRecord_withRecord (s : State) (i : Slot) (h r : Hoist) :
    (s.withRecord i h).withRecord i r = s.withRecord i r := by
  simp [State.withRecord, State.setSlot, State.slot]

@[simp] theorem State.slot_withoutMember (s : State) (i j : Slot) (h : Hoist) :
    (s.withoutMember i h).slot j = s.slot j := by
  unfold State.withoutMember; split <;> rfl

/-- Leaving a group touches the group table alone. -/
theorem State.withoutMember_fields (s : State) (i : Slot) (h : Hoist) :
    s.withoutMember i h = { s with groups := (s.withoutMember i h).groups } := by
  unfold State.withoutMember; split <;> rfl

/-- What a slot held before its record leaves does not matter. -/
theorem State.slotReleased_withRecord (s : State) (i : Slot) (h r : Hoist) (cause : Release) :
    (s.withRecord i r).slotReleased i h cause = s.slotReleased i h cause := by
  simp [State.slotReleased, State.withRecord, State.setSlot, State.slot]

/-- The slot, the map and the list after a record has left its slot. -/
theorem State.slotReleased_spec (s : State) (i : Slot) (h : Hoist) (cause : Release) :
    (s.slotReleased i h cause).nodeMap = (s.nodeMap.filter fun e => decide (e.1 ≠ h.address)) ∧
      (s.slotReleased i h cause).link.pollList = s.link.pollList.filter fun j => decide (j ≠ i) := by
  rw [← State.leaveSlot_eq]
  obtain ⟨h1, h2, -, -⟩ := s.leaveSlot_spec i h cause
  refine ⟨h1.trans ?_, h2.trans ?_⟩
  · simp only [removeAddress, bne, ne_eq, decide_not]; rfl
  · simp only [removeSlot, bne, ne_eq, decide_not]; rfl

section Retire
variable {s : State} {slot : Byte} {i : Slot} {h : Hoist}

/-- RETIRE of a record that may go: a ready one retires, another one leaves its slot (R22). -/
theorem State.retire_free (hi : slot.toNat = i.val) (hr : s.record i = some h)
    (hs : h.state = .ready ∨ h.state = .lost ∨ h.state = .admitting)
    (hg : ∀ k ∈ h.group, (s.group k).state = .empty ∨ (s.group k).state = .idle ∨ (s.group k).state = .faulted) :
    s.retire slot =
      if h.state = .ready then
        ((s.withoutMember i h).withRecord i { h with group := none, state := .retiring, demand := 0, direction := .none },
          .plain .ok)
      else ((s.withoutMember i h).slotReleased i h .retiredDirect, .plain .ok) := by
  have h1 : ¬ (h.state ≠ .ready ∧ h.state ≠ .lost ∧ h.state ≠ .admitting) := by tauto
  have h2 : s.groupAllows h GroupState.atRest = true := by
    rw [State.groupAllows_iff]; intro k hk; exact (GroupState.atRest_iff _).2 (hg k hk)
  simp only [State.retire, slotOf_eq hi, hr, if_neg h1, h2, Bool.not_true, Bool.false_eq_true, if_false,
    State.leaveGroup_eq hr, State.leaveSlot_eq, State.slotReleased_withRecord]
  congr 2
  rw [State.modRecord_eq (State.record_withRecord_self ..), State.withRecord_withRecord]

/-- RETIRE of a record in another state, or in a group that is not at rest (R22). -/
theorem State.retire_refused (hi : slot.toNat = i.val) (hr : s.record i = some h)
    (hn : (h.state ≠ .ready ∧ h.state ≠ .lost ∧ h.state ≠ .admitting) ∨
      ¬ ∀ k ∈ h.group, (s.group k).state = .empty ∨ (s.group k).state = .idle ∨ (s.group k).state = .faulted) :
    s.retire slot = (s, .plain .state) := by
  have h2 : (h.state ≠ .ready ∧ h.state ≠ .lost ∧ h.state ≠ .admitting) ∨
      s.groupAllows h GroupState.atRest = false := by
    refine hn.imp_right fun hg => ?_
    rw [← Bool.not_eq_true, State.groupAllows_iff]
    exact fun hc => hg fun k hk => (GroupState.atRest_iff _).1 (hc k hk)
  simp only [State.retire, slotOf_eq hi, hr]
  rcases h2 with h2 | h2
  · rw [if_pos h2]
  · simp [h2]

end Retire

/-- A record that leaves its slot while no round can complete: the slot, the map, the list and the poll in flight. -/
theorem State.slotReleased_eq {s : State} (i : Slot) (h : Hoist) (cause : Release)
    (hp : s.link.round = .inRound → s.link.poll ≠ none) :
    let list := s.link.pollList.filter fun j => decide (j ≠ i)
    let cancelled : Bool := match s.link.round with
      | .between _ => list.isEmpty
      | _ => false
    s.slotReleased i h cause = { s with
      slots := s.slots.set i { s.slot i with record := none, release := cause, releasedAddress := some h.address }
      nodeMap := s.nodeMap.filter fun e => decide (e.1 ≠ h.address)
      link := { s.link with
        pollList := list
        poll := s.link.poll.map fun p => if p.slot = i then { p with orphaned := true } else p
        round := if cancelled then .stopped else s.link.round
        haltOwed := if cancelled then false else s.link.haltOwed } } := by
  unfold State.slotReleased
  generalize (s.link.pollList.filter fun j => decide (j ≠ i)) = list
  cases hr : s.link.round with
  | stopped => simp [hr]
  | inRound => simp [hr, hp hr]
  | between pace => cases list <;> simp [hr]

/-- Settles O22: the owner's work in each case, and the record's leaving through `slotReleased`. -/
theorem retireByHoistState : Obligations.RetireByHoistState := by
  intro s slot hp
  refine ⟨fun hs => complete_console_refused hp (by simp [State.retire, slotOf_none hs]), fun i hi =>
    ⟨fun hr => complete_console_refused hp (by simp [State.retire, slotOf_eq hi, hr]), fun h hr =>
      ⟨fun h1 h2 h3 => ?_, fun hn => ?_, fun hg hs => ?_, fun hg hs => ?_⟩⟩⟩
  · exact complete_console_refused hp (State.retire_refused (s := s.dropWalk) hi hr (.inl ⟨h1, h2, h3⟩))
  · exact complete_console_refused hp (State.retire_refused (s := s.dropWalk) hi hr (.inr hn))
  · refine complete_console hp ?_
    rw [State.retire_free (s := s.dropWalk) hi hr (.inl hs) hg, if_pos hs]
    unfold State.withoutMember
    cases h.group <;> rfl
  · have hne : h.state ≠ .ready := by rcases hs with e | e <;> simp [e]
    have run : exec (.retire slot) s =
        .next (((s.withoutMember i h).slotReleased i h .retiredDirect).answering .ok []) := by
      refine complete_console hp ?_
      rw [State.retire_free (s := s.dropWalk) hi hr (.inr hs) hg, if_neg hne, ← State.leaveSlot_eq, ← State.leaveSlot_eq,
        ← State.leaveSlot_dropWalk]
      unfold State.withoutMember
      cases h.group <;> rfl
    refine ⟨run, ⟨_, run, ?_, ?_, ?_⟩, fun hl => ?_⟩
    · rw [State.slot_answering, State.slot_slotReleased_self, State.slot_withoutMember]
    · rw [State.nodeMap_answering, (State.slotReleased_spec ..).1, State.withoutMember_fields]
    · rw [State.pollList_answering, (State.slotReleased_spec ..).2, State.withoutMember_fields]
    · rw [run, State.slotReleased_eq]
      · simp only [State.slot_withoutMember]
        rw [State.withoutMember_fields s i h] <;> rfl
      · rw [State.withoutMember_fields s i h]
        exact hl

end Sys2Proof.Machine

/-! ## Starts, stops, the E-stop and the jog -/

namespace Sys2Proof.Machine

/-! ### A start (R43, R44, R54 to R56) -/

/-- Settles O31: the start of an armed group is `Group.begin` on the group and `Hoist.startMove` on its members. -/
theorem moveStartSetsReference : Obligations.MoveStartSetsReference := by
  refine ⟨fun s k => ?_, fun s k h => State.startMove_of_ne h, fun s k cue rest dir h1 h2 h3 => ?_⟩
  · simp only [State.normalHeights, State.memberRecords, List.filterMap_filterMap]
    rfl
  · have hs := State.startMove_eq h1 h2 h3
    refine ⟨?_, fun i => ?_⟩
    · rw [(State.startMove_tables s k).eq]
      congr 1
      rw [hs, State.groups_modMembers]
      simp only [State.modGroup, Group.begin, average, divTrunc]
      congr 1
      cases dir <;> cases cue.source <;> rfl
    · rw [hs, State.slot_modMembers, State.group_modGroup_self]
      rfl

/-! ### The stop sequence (R112, R113) -/

section Stop
variable (s : State) (k : GroupId) (cause : StopCause) (slot : Option Slot) (value : Option Int)

/-- The group table after the stop sequence: the group at its entry to GST_STOPPING, or at the completion where every
member stands at rest. -/
theorem State.groups_enterStopping :
    (s.enterStopping k cause slot value).groups = s.groups.set k
      (if ((s.modGroup k fun g => g.beginStop cause slot value).modMembers k Hoist.stop).allAtRest k then
        ((s.group k).beginStop cause slot value).completeStop
      else (s.group k).beginStop cause slot value) := by
  rw [← State.group_enterStopping_self]
  refine Vector.ext fun j hj => ?_
  by_cases h : k.val = j
  · subst h
    rw [Vector.getElem_set_self]
    rfl
  · rw [Vector.getElem_set_ne _ _ h]
    exact s.group_enterStopping_ne (j := ⟨j, hj⟩) (fun e => h (congrArg Fin.val e)) cause slot value

/-- A stop leaves a record at rest, or not at rest, as it was: only a moving one changes. -/
theorem Hoist.stop_rest (h : Hoist) :
    (h.stop.state = .ready ∨ h.stop.state = .lost) ↔ (h.state = .ready ∨ h.state = .lost) := by
  unfold Hoist.stop
  split
  · next hs => simp [hs]
  · rfl

/-- The stop is complete at once exactly where every member was at rest before it. -/
theorem State.allAtRest_stopped :
    ((s.modGroup k fun g => g.beginStop cause slot value).modMembers k Hoist.stop).allAtRest k = true ↔
      s.EveryMember k fun h => h.state = .ready ∨ h.state = .lost := by
  have hm : ((s.group k).beginStop cause slot value).members = (s.group k).members := rfl
  rw [State.allAtRest_iff]
  simp only [State.EveryMember, State.group_modMembers, State.group_modGroup_self, hm, State.record_modMembers,
    State.record_modGroup]
  refine forall₂_congr fun i hi => ?_
  rw [if_pos hi]
  cases s.record i with
  | none => simp
  | some h => simpa using h.stop_rest

end Stop

/-- Settles O35: the stop sequence is `Group.beginStop` on the group and `Hoist.stop` on its members, and its completion
depends on the members that stood still already. -/
theorem stopSequenceEntersStopping : Obligations.StopSequenceEntersStopping := by
  intro s k cause slot value hs
  have htab := (s.enterStopping_tables k cause slot value).eq
  have hgr := s.groups_enterStopping k cause slot value
  have hrest := s.allAtRest_stopped k cause slot value
  refine ⟨fun hm => ?_, fun hm => ?_, fun i => ?_⟩
  · rw [if_neg] at hgr
    · conv_lhs => rw [htab, hgr]
      cases cause <;> rfl
    · intro hc
      obtain ⟨i, hi, h, hh, h1, h2⟩ := hm
      rcases hrest.1 hc i hi h hh with e | e
      · exact h1 e
      · exact h2 e
  · rw [if_pos (hrest.2 hm)] at hgr
    conv_lhs => rw [htab, hgr]
    cases cause <;> rfl
  · exact s.slot_enterStopping ..

/-! ### The E-stop of the groups (R115) -/

/-- Another group's record and its members' slots are not touched by a group's E-stop. -/
theorem State.group_estopGroup_ne (s : State) {k j : GroupId} (h : k ≠ j) : (s.estopGroup k).group j = s.group j := by
  have hm : ∀ f : Group → Group, (s.modGroup k f).group j = s.group j := fun f => by
    rw [State.group_modGroup, if_neg h]
  unfold State.estopGroup
  split
  · exact s.group_enterStopping_ne h ..
  · exact hm _
  · exact hm _
  · split
    · rfl
    · exact hm _
  all_goals rfl

/-- The E-stop of a group changes the slots of a moving group's members alone. -/
theorem State.slot_estopGroup (s : State) (k : GroupId) (i : Slot) :
    (s.estopGroup k).slot i =
      if (s.group k).state = .moving ∧ i ∈ (s.group k).members then
        { s.slot i with record := (s.record i).map Hoist.stop }
      else s.slot i := by
  unfold State.estopGroup
  cases hs : (s.group k).state with
  | moving => simp only [true_and]; exact s.slot_enterStopping ..
  | stopping => dsimp only; split <;> simp
  | _ => simp

/-- The record of a group that takes the E-stop reads its own record and its members' alone. -/
theorem State.group_estopGroup_congr {s t : State} {k : GroupId} (hg : t.group k = s.group k)
    (hr : ∀ i ∈ (s.group k).members, t.record i = s.record i) : (t.estopGroup k).group k = (s.estopGroup k).group k := by
  have hst : ∀ cause slot value,
      (t.enterStopping k cause slot value).group k = (s.enterStopping k cause slot value).group k := by
    intro cause slot value
    have hb : ((t.modGroup k fun g => g.beginStop cause slot value).modMembers k Hoist.stop).allAtRest k =
        ((s.modGroup k fun g => g.beginStop cause slot value).modMembers k Hoist.stop).allAtRest k := by
      rw [Bool.eq_iff_iff, State.allAtRest_stopped, State.allAtRest_stopped]
      simp only [State.EveryMember, hg]
      exact forall₂_congr fun i hi => by rw [hr i hi]
    rw [State.group_enterStopping_self, State.group_enterStopping_self, hb, hg]
  unfold State.estopGroup
  rw [hg]
  split
  · exact hst ..
  · simp [hg]
  · simp [hg]
  · split <;> simp [hg]
  all_goals exact hg

/-- With the member sets of R31 no slot is a member of two groups. -/
theorem State.MembersOk.unique {s : State} (hm : s.MembersOk) {i : Slot} {j k : GroupId} (hj : i ∈ (s.group j).members)
    (hk : i ∈ (s.group k).members) : j = k := by
  rw [(hm j).1, State.mem_naming] at hj
  rw [(hm k).1, State.mem_naming] at hk
  exact Option.some.inj (hj.symm.trans hk)

/-- The E-stop of the groups of a list, each once: a group of the list acts as on the state before, its moving members
stop, and nothing else changes. -/
theorem State.estopGroup_foldl {s : State} (hm : s.MembersOk) {l : List GroupId} (hl : l.Nodup) :
    (∀ k, (l.foldl State.estopGroup s).group k = if k ∈ l then (s.estopGroup k).group k else s.group k) ∧
      ∀ i, (l.foldl State.estopGroup s).slot i =
        if ∃ k ∈ l, (s.group k).state = .moving ∧ i ∈ (s.group k).members then
          { s.slot i with record := (s.record i).map Hoist.stop }
        else s.slot i := by
  induction l using List.reverseRecOn with
  | nil => simp
  | append_singleton l k ih =>
    obtain ⟨hl1, -, hl2⟩ := List.nodup_append.1 hl
    have hk : k ∉ l := fun h => hl2 k h k (by simp) rfl
    obtain ⟨ihg, ihs⟩ := ih hl1
    rw [List.foldl_append, List.foldl_cons, List.foldl_nil]
    generalize l.foldl State.estopGroup s = t at ihg ihs ⊢
    have hgk : t.group k = s.group k := by rw [ihg, if_neg hk]
    have hsk : ∀ i ∈ (s.group k).members, t.slot i = s.slot i := fun i hi => by
      rw [ihs, if_neg]
      rintro ⟨j, hj, -, hij⟩
      exact hk (hm.unique hi hij ▸ hj)
    refine ⟨fun j => ?_, fun i => ?_⟩
    · by_cases hj : k = j
      · subst hj
        rw [if_pos (by simp)]
        exact State.group_estopGroup_congr hgk fun i hi => by simp only [State.record, hsk i hi]
      · rw [State.group_estopGroup_ne t hj, ihg]
        have : j ≠ k := fun e => hj e.symm
        simp [this]
    · rw [State.slot_estopGroup, hgk]
      by_cases hi : (s.group k).state = .moving ∧ i ∈ (s.group k).members
      · rw [if_pos hi, if_pos ⟨k, by simp, hi⟩]
        simp only [State.record, hsk i hi.2]
      · rw [if_neg hi, ihs]
        have : (∃ j ∈ l ++ [k], (s.group j).state = .moving ∧ i ∈ (s.group j).members) ↔
            ∃ j ∈ l, (s.group j).state = .moving ∧ i ∈ (s.group j).members := by
          simp only [List.mem_append, List.mem_singleton]
          constructor
          · rintro ⟨j, hj | rfl, h⟩
            · exact ⟨j, hj, h⟩
            · exact absurd h hi
          · rintro ⟨j, hj, h⟩
            exact ⟨j, .inl hj, h⟩
        simp only [this]

/-- The E-stop of all groups: each acts by its own state, and the moving members stop. -/
theorem State.estopGroups_spec {s : State} (hm : s.MembersOk) :
    (∀ k, s.estopGroups.group k = (s.estopGroup k).group k) ∧
      ∀ i, s.estopGroups.slot i =
        if ∃ k, (s.group k).state = .moving ∧ i ∈ (s.group k).members then
          { s.slot i with record := (s.record i).map Hoist.stop }
        else s.slot i := by
  obtain ⟨hg, hs⟩ := State.estopGroup_foldl hm (List.nodup_finRange 8)
  refine ⟨fun k => ?_, fun i => ?_⟩
  · rw [State.estopGroups, hg, if_pos (List.mem_finRange k)]
  · rw [State.estopGroups, hs]
    simp only [List.mem_finRange, true_and]

/-- Settles O44: the walk over the groups reaches each once, and no member set holds another group's slots. -/
theorem estopActsOnEveryGroup : Obligations.EstopActsOnEveryGroup := by
  intro s hm
  obtain ⟨hg, hs⟩ := State.estopGroups_spec hm
  refine ⟨s.estopGroups_tables.eq, fun i hi => ?_, fun k hk i hi => ?_, fun k => ?_⟩
  · rw [hs, if_neg]
    rintro ⟨k, hk, hik⟩
    exact hi k hk hik
  · rw [hs, if_pos ⟨k, hk, hi⟩]
    rfl
  · rw [hg]
    unfold State.estopGroup
    dsimp only
    cases hst : (s.group k).state with
    | stopping =>
      cases hc : (s.group k).stopCause with
      | none => simp [Group.capture, hst]
      | some c => cases c <;> simp [Group.capture, hst]
    | _ => simp [Group.fault, Group.capture, Group.stopTimers]

/-! ### The jog by the index 8 (R132, R133) -/

/-- Some hoist jogs. -/
theorem State.anyJogging_iff (s : State) : s.anyJogging = true ↔ ∃ i, s.hoistState i = some .jogging := by
  simp [State.anyJogging]

/-- The end of a jog in the words of the statements. -/
theorem State.endJog_eq {s : State} {i : Slot} {h : Hoist} (hj : s.safety.jogSlot = some i) (hr : s.record i = some h)
    (hs : h.state = .jogging) (cause : JogEndCause) : s.endJog cause = s.jogEnded i h cause := by
  have hr' : s.slots[i.val].record = some h := hr
  simp [State.endJog, hj, State.jogEnded, State.slotAttention, State.modRecord, SlotEntry.modRecord, State.modSlot,
    State.setSlot, State.slot, hr', Hoist.endJog, hs]

/-- Settles O33: HOLD 8, HALT 8 and the expiry reach the jog through `State.endJog`. -/
theorem jogHeldHaltedAndEnded : Obligations.JogHeldHaltedAndEnded := by
  intro s
  refine ⟨fun hp hj => complete_console hp ?_, fun hp hj => complete_console_refused hp ?_,
    fun hp hj => complete_console hp ?_, fun i h hj hr hs => ⟨fun hp => complete_console hp ?_, fun ht => ?_⟩⟩
  · rw [State.holdJog, if_pos ((State.anyJogging_iff s.dropWalk).2 hj)]
    rfl
  · rw [State.holdJog, if_neg]
    intro hc
    obtain ⟨i, hi⟩ := (State.anyJogging_iff s.dropWalk).1 hc
    exact hj i hi
  · rw [State.haltJog, State.endJog, State.safety_dropWalk, hj]
    rfl
  · rw [State.haltJog, State.endJog_eq (s := s.dropWalk) hj hr hs]
    rfl
  · have : s.takeJogExpiry = s.jogEnded i h .hold := by
      rw [State.takeJogExpiry, if_pos (Option.isSome_iff_ne_none.2 ht), State.endJog_eq hj hr hs]
    exact congrArg (fun t => Host.Outcome.next t.repace) this

end Sys2Proof.Machine

/-! ## Misses, losses and valid replies -/

namespace Sys2Proof.Machine

/-! ### Writes of the current set, whole (R103, R104) -/

/-- A write of the current set of a slot with a record: the two sets, and the attention that what enters the accrued set
calls for (R104). -/
theorem SlotEntry.writeCurrent_eq {e : SlotEntry} {h : Hoist} (hr : e.record = some h) (new : CondSet) :
    e.writeCurrent new = { e with
      attention := decide (e.attention = true ∨
        ∃ c ∈ new, (c.condClass = .stop ∨ c.condClass = .maskable) ∧ c ∉ h.accrued)
      record := some { h with current := new, accrued := h.accrued.union new } } := by
  have ha : (e.attention || new.any fun c => c.setsAttention && !h.accrued.contains c) =
      decide (e.attention = true ∨
        ∃ c ∈ new, (c.condClass = .stop ∨ c.condClass = .maskable) ∧ c ∉ h.accrued) := by
    rw [Bool.eq_iff_iff]
    simp [Cond.setsAttention]
  simp only [SlotEntry.writeCurrent, hr, ha]

theorem SlotEntry.addCurrent_eq {e : SlotEntry} {h : Hoist} (hr : e.record = some h) (c : Cond) :
    e.addCurrent c = e.writeCurrent (h.current.add c) := by simp [SlotEntry.addCurrent, hr]

theorem SlotEntry.removeCurrent_eq {e : SlotEntry} {h : Hoist} (hr : e.record = some h) (c : Cond) :
    e.removeCurrent c = e.writeCurrent (h.current.remove c) := by simp [SlotEntry.removeCurrent, hr]

/-- A write of what has all been accrued calls for no attention and accrues nothing. -/
theorem SlotEntry.writeCurrent_accrued {e : SlotEntry} {h : Hoist} (hr : e.record = some h) {new : CondSet}
    (hw : h.accrued.wf) (hn : ∀ c ∈ new, c ∈ h.accrued) :
    e.writeCurrent new = { e with record := some { h with current := new } } := by
  have hu : h.accrued.union new = h.accrued :=
    CondSet.ext_wf (CondSet.wf_union ..) hw fun c => by
      rw [CondSet.mem_union]
      exact ⟨fun h => h.elim id (hn c), .inl⟩
  have hd : decide (e.attention = true ∨
      ∃ c ∈ new, (c.condClass = .stop ∨ c.condClass = .maskable) ∧ c ∉ h.accrued) = e.attention := by
    rw [Bool.eq_iff_iff, decide_eq_true_iff]
    constructor
    · rintro (ha | ⟨c, hc, -, hc'⟩)
      · exact ha
      · exact absurd (hn c hc) hc'
    · exact .inl
  rw [SlotEntry.writeCurrent_eq hr, hu, hd]

/-! ### Changes of one slot -/

theorem State.modSlot_eq (s : State) (i : Slot) (f : SlotEntry → SlotEntry) : s.modSlot i f = s.setSlot i (f (s.slot i)) :=
  rfl

@[simp] theorem State.setSlot_setSlot (s : State) (i : Slot) (e e' : SlotEntry) :
    (s.setSlot i e).setSlot i e' = s.setSlot i e' := by
  simp [State.setSlot]

@[simp] theorem State.record_setSlot_self (s : State) (i : Slot) (e : SlotEntry) : (s.setSlot i e).record i = e.record := by
  simp [State.record]

theorem State.record_setSlot (s : State) (i j : Slot) (e : SlotEntry) :
    (s.setSlot i e).record j = if i = j then e.record else s.record j := by
  simp only [State.record, State.slot_setSlot]; split <;> rfl

/-- A change of one record is a change of its slot. -/
theorem State.modRecord_eq_setSlot {s : State} {i : Slot} {h : Hoist} (hr : s.record i = some h) (f : Hoist → Hoist) :
    s.modRecord i f = s.setSlot i { s.slot i with record := some (f h) } := State.modRecord_eq hr f

/-- Of the slot that a record leaves, only its attention is kept. -/
theorem State.slotReleased_setSlot (s : State) (i : Slot) {e e' : SlotEntry} {h h' : Hoist} (cause : Release)
    (ha : e.attention = e'.attention) (hh : h.address = h'.address) :
    (s.setSlot i e).slotReleased i h cause = (s.setSlot i e').slotReleased i h' cause := by
  simp [State.slotReleased, State.setSlot, State.slot, ha, hh]

/-- A record's leaving with attention, from a slot in which its record has been written since. -/
theorem State.leaveSlotNoted_eq (s : State) (i : Slot) (e : SlotEntry) {h h' : Hoist} (cause : Release)
    (hh : h'.address = h.address) : (s.setSlot i e).leaveSlotNoted i h' cause = s.slotReleasedNoted i h cause := by
  unfold State.leaveSlotNoted State.slotReleasedNoted
  rw [State.leaveSlot_eq, State.slotAttention, State.modSlot_eq, State.setSlot_setSlot]
  exact State.slotReleased_setSlot s i cause rfl hh

/-- The slot and the map after a record has left with attention. -/
theorem State.slotReleasedNoted_spec (s : State) (i : Slot) (h : Hoist) (cause : Release) :
    (s.slotReleasedNoted i h cause).slot i = ⟨none, cause, some h.address, true⟩ ∧
      (s.slotReleasedNoted i h cause).nodeMap = (s.nodeMap.filter fun e => decide (e.1 ≠ h.address)) ∧
      (s.slotReleasedNoted i h cause).link.pollList = s.link.pollList.filter fun j => decide (j ≠ i) := by
  unfold State.slotReleasedNoted
  refine ⟨?_, (State.slotReleased_spec ..).1, (State.slotReleased_spec ..).2⟩
  rw [State.slot_slotReleased_self, State.slot_setSlot_self]

/-! ### Stops reach moving records alone -/

/-- A condition event leaves every slot whose record does not move. -/
theorem State.slot_conditionEvent {s : State} {j : Slot} (hj : ∀ h ∈ s.record j, h.state ≠ .moving) (k : GroupId)
    (i : Slot) (c : Cond) (value : Option Int) : (s.conditionEvent k i c value).slot j = s.slot j := by
  unfold State.conditionEvent
  split
  · rw [State.slot_enterStopping]
    split
    · cases hr : s.record j with
      | none => rw [Option.map_none, ← hr]; rfl
      | some h => rw [Option.map_some, Hoist.stop_of_ne (hj h hr), ← hr]; rfl
    · rfl
  all_goals simp

/-- A loss event leaves every slot whose record does not move. -/
theorem State.slot_lossEvent {s : State} {j : Slot} (hj : ∀ h ∈ s.record j, h.state ≠ .moving) (k : GroupId) (i : Slot)
    (value : Option Int) : (s.lossEvent k i value).slot j = s.slot j := by
  unfold State.lossEvent
  split
  · exact s.slot_testStop k j
  · exact State.slot_conditionEvent hj ..

/-- A loss event of a record's group, if it has one. -/
def State.groupLoss (s : State) (k : Option GroupId) (i : Slot) (value : Option Int) : State :=
  match k with
  | some k => s.lossEvent k i value
  | none => s

theorem State.groupLoss_work (s : State) (k : Option GroupId) (i : Slot) (value : Option Int) :
    s.GroupWork (s.groupLoss k i value) := by
  cases k with
  | none => exact .refl s
  | some k => exact s.lossEvent_work ..

theorem State.slot_groupLoss {s : State} {j : Slot} (hj : ∀ h ∈ s.record j, h.state ≠ .moving) (k : Option GroupId)
    (i : Slot) (value : Option Int) : (s.groupLoss k i value).slot j = s.slot j := by
  cases k with
  | none => rfl
  | some k => exact State.slot_lossEvent hj ..

/-! ### The end of a jog, slot by slot (R133) -/

theorem State.slot_endJog (s : State) (cause : JogEndCause) (j : Slot) :
    (s.endJog cause).slot j =
      if s.safety.jogSlot = some j then
        { s.slot j with attention := true, record := (s.record j).map Hoist.endJog }
      else s.slot j := by
  rcases s.endJog_cases cause with ⟨hn, h⟩ | ⟨i, hi, h⟩ <;> rw [h]
  · simp [hn]
  · rw [hi, State.slotAttention, State.slot_modSlot, State.slot_modRecord, State.slot_modRecord]
    by_cases hij : i = j
    · subst hij
      simp only [if_true]
      rfl
    · rw [if_neg hij, if_neg hij, if_neg fun e => hij (Option.some.inj e)]
      rfl

/-- The end of a jog touches the slot table and the lines. -/
theorem State.endJog_fields (s : State) (cause : JogEndCause) :
    s.endJog cause = { s with slots := (s.endJog cause).slots, safety := (s.endJog cause).safety } := by
  rcases s.endJog_cases cause with ⟨-, h⟩ | ⟨i, -, h⟩
  · rw [h]
  · rw [h]; rfl

/-- The end of a jog on the lines (R133). -/
theorem State.safety_endJog {s : State} {i : Slot} (hj : s.safety.jogSlot = some i) (cause : JogEndCause) :
    (s.endJog cause).safety =
      { s.safety with jogSlot := none, jogTimer := none, lastJogEnd := some ⟨i, cause⟩ } := by
  simp [State.endJog, hj]

/-- The jog of a record that is lost already ends on the lines alone. -/
theorem State.endJog_of_ne {s : State} {i : Slot} {h : Hoist} (hj : s.safety.jogSlot = some i)
    (hr : s.record i = some h) (hs : h.state ≠ .jogging) (ha : (s.slot i).attention = true) (cause : JogEndCause) :
    s.endJog cause =
      { s with safety := { s.safety with jogSlot := none, jogTimer := none, lastJogEnd := some ⟨i, cause⟩ } } := by
  rw [State.endJog_fields, State.safety_endJog hj]
  have hslots : (s.endJog cause).slots = s.slots := by
    refine Vector.ext fun j hj' => ?_
    show (s.endJog cause).slot ⟨j, hj'⟩ = s.slot ⟨j, hj'⟩
    rw [State.slot_endJog, hj]
    split
    · next e =>
      cases e
      rw [hr, Option.map_some, Hoist.endJog, if_neg hs, ← hr, ← ha]
      rfl
    · rfl
  rw [hslots]

/-! ### A loss (R19) and a miss (R154) -/

/-- The slot of a lost record: the motion fields cleared, COND_LOST current, attention (R19, R24). -/
def SlotEntry.lost (e : SlotEntry) (h : Hoist) : SlotEntry :=
  { e with
    attention := true
    record := some { h.lose with
      current := h.current.add .lost
      accrued := h.accrued.union (h.current.add .lost) } }

/-- A loss writes the slot and hands the loss event; a jog of the record ends (R19, R109, R133). -/
theorem State.lose_eq {s : State} {i : Slot} {h : Hoist} (hr : s.record i = some h) (r : Hoist) :
    s.lose i r =
      let u := (s.setSlot i ((s.slot i).lost h)).groupLoss r.group i (some r.missCount)
      if r.state = .jogging then u.endJog (.condition .lost) else u := by
  have ht : ((s.modRecord i Hoist.lose).modSlot i (SlotEntry.addCurrent .lost)).slotAttention i =
      s.setSlot i ((s.slot i).lost h) := by
    rw [State.slotAttention, State.modSlot_eq, State.modSlot_eq, State.modRecord_eq_setSlot hr, State.setSlot_setSlot,
      State.setSlot_setSlot, State.slot_setSlot_self, State.slot_setSlot_self]
    rw [SlotEntry.addCurrent_eq (h := h.lose) rfl, SlotEntry.writeCurrent_eq (h := h.lose) rfl]
    rfl
  unfold State.lose State.groupLoss
  rw [ht] <;> cases r.group <;> rfl

/-- A lost record does not jog, and its slot has attention already. -/
theorem SlotEntry.lost_endJog (e : SlotEntry) (h : Hoist) :
    { e.lost h with attention := true, record := (e.lost h).record.map Hoist.endJog } = e.lost h := by
  simp [SlotEntry.lost, Hoist.endJog, Hoist.lose]

/-- The loss event leaves the slot of the lost record. -/
theorem State.slot_groupLoss_lost (s : State) (i : Slot) (e : SlotEntry) (h : Hoist) (k : Option GroupId)
    (value : Option Int) : ((s.setSlot i (e.lost h)).groupLoss k i value).slot i = e.lost h := by
  rw [State.slot_groupLoss, State.slot_setSlot_self]
  intro o ho
  rw [State.record_setSlot_self] at ho
  cases ho
  exact HoistState.noConfusion

/-- The loss of the hoist that jogs: its loss event, and the jog end on the lines (R109, R133). -/
theorem State.lose_jogging {s : State} {i : Slot} {h r : Hoist} (hr : s.record i = some h)
    (hj : s.safety.jogSlot = some i) (hs : r.state = .jogging) :
    let v := (s.setSlot i ((s.slot i).lost h)).groupLoss r.group i (some r.missCount)
    s.lose i r =
      { v with safety :=
        { v.safety with jogSlot := none, jogTimer := none, lastJogEnd := some ⟨i, .condition .lost⟩ } } := by
  have hv := s.slot_groupLoss_lost i (s.slot i) h r.group (some r.missCount)
  have hw := ((s.setSlot i ((s.slot i).lost h)).groupLoss_work r.group i (some r.missCount)).tables.safety
  rw [State.lose_eq hr]
  dsimp only
  rw [if_pos hs]
  generalize (s.setSlot i ((s.slot i).lost h)).groupLoss r.group i (some r.missCount) = v at hv hw ⊢
  refine State.endJog_of_ne (by rw [hw]; exact hj) (congrArg SlotEntry.record hv) HoistState.noConfusion ?_ _
  rw [hv]; rfl

/-- What a loss leaves: the slot of the lost record, and of the other slots all but the moving ones and the jog's. -/
theorem State.lose_spec {s : State} {i : Slot} {h : Hoist} (hr : s.record i = some h) (r : Hoist) :
    (s.lose i r).slot i = (s.slot i).lost h ∧
      (s.lose i r).nodeMap = s.nodeMap ∧ (s.lose i r).link = s.link ∧ s.PortKept (s.lose i r) ∧
      ∀ j, j ≠ i → s.safety.jogSlot ≠ some j → (∀ o ∈ s.record j, o.state ≠ .moving) → (s.lose i r).slot j = s.slot j := by
  rw [State.lose_eq hr]
  have hw := (s.setSlot i ((s.slot i).lost h)).groupLoss_work r.group i (some r.missCount)
  have hu := s.slot_groupLoss_lost i (s.slot i) h r.group (some r.missCount)
  have hj : ∀ j, j ≠ i → (∀ o ∈ s.record j, o.state ≠ .moving) →
      ((s.setSlot i ((s.slot i).lost h)).groupLoss r.group i (some r.missCount)).slot j = s.slot j := by
    intro j hij ho
    have hs : (s.setSlot i ((s.slot i).lost h)).slot j = s.slot j := by
      rw [State.slot_setSlot, if_neg fun e => hij e.symm]
    rw [State.slot_groupLoss, hs]
    rwa [State.record, hs]
  dsimp only
  generalize (s.setSlot i ((s.slot i).lost h)).groupLoss r.group i (some r.missCount) = u at hw hu hj ⊢
  split
  · have hf := u.endJog_fields (.condition .lost)
    refine ⟨?_, ?_, ?_, ?_, fun j hij hjog ho => ?_⟩
    · rw [State.slot_endJog]
      split
      · rw [State.record, hu, SlotEntry.lost_endJog]
      · exact hu
    · rw [hf]; exact hw.tables.nodeMap
    · rw [hf]; exact hw.tables.link
    · exact ((State.PortKept.modSlot s i fun _ => (s.slot i).lost h).trans hw.tables.portKept).trans (u.endJog_kept _)
    · rw [State.slot_endJog, hw.tables.safety, State.safety_setSlot, if_neg hjog]
      exact hj j hij ho
  · exact ⟨hu, hw.tables.nodeMap, hw.tables.link,
      (State.PortKept.modSlot s i fun _ => (s.slot i).lost h).trans hw.tables.portKept, fun j hij _ ho => hj j hij ho⟩

/-- A record whose poll missed (R154). -/
def Hoist.missed (h : Hoist) (reason : MissReason) (threshold : Nat) : Hoist :=
  { h with
    lastMiss := some reason
    missCount := min (h.missCount + 1) threshold
    current := h.current.add .linkErr
    accrued := h.accrued.union (h.current.add .linkErr) }

/-- The slot of a record whose poll missed (R154 steps 1 to 3). -/
def SlotEntry.missed (e : SlotEntry) (h : Hoist) (reason : MissReason) (threshold : Nat) : SlotEntry :=
  SlotEntry.addCurrent .linkErr { e with record := some (h.countMiss reason threshold) }

/-- The missed slot, field by field. -/
theorem SlotEntry.missed_eq (e : SlotEntry) (h : Hoist) (reason : MissReason) {threshold : Nat}
    (hc : h.missCount ≤ threshold) :
    e.missed h reason threshold = { e with
      attention := decide (e.attention = true ∨
        ∃ c ∈ h.current.add .linkErr, (c.condClass = .stop ∨ c.condClass = .maskable) ∧ c ∉ h.accrued)
      record := some (h.missed reason threshold) } := by
  have hm : (if h.missCount < threshold then h.missCount + 1 else h.missCount) = min (h.missCount + 1) threshold := by
    split <;> omega
  unfold SlotEntry.missed
  rw [SlotEntry.addCurrent_eq (h := h.countMiss reason threshold) rfl,
    SlotEntry.writeCurrent_eq (h := h.countMiss reason threshold) rfl]
  simp only [Hoist.missed, Hoist.countMiss, hm]

/-- A miss writes the slot, and at the threshold acts by the record's state (R154). -/
theorem State.miss_eq {s : State} {i : Slot} {h : Hoist} (hr : s.record i = some h) (reason : MissReason)
    (hc : h.missCount ≤ s.link.lossThreshold) :
    let t := s.setSlot i ((s.slot i).missed h reason s.link.lossThreshold)
    let r := h.missed reason s.link.lossThreshold
    t.record i = some r ∧
      s.miss i reason = if r.missCount = s.link.lossThreshold then t.thresholdEvent i r else t := by
  have ht : (s.modRecord i fun h => h.countMiss reason s.link.lossThreshold).modSlot i (SlotEntry.addCurrent .linkErr) =
      s.setSlot i ((s.slot i).missed h reason s.link.lossThreshold) := by
    rw [State.modSlot_eq, State.modRecord_eq_setSlot hr, State.setSlot_setSlot, State.slot_setSlot_self]
    rfl
  have hrec := congrArg SlotEntry.record (SlotEntry.missed_eq (s.slot i) h reason hc)
  refine ⟨by rw [State.record_setSlot_self, hrec], ?_⟩
  unfold State.miss
  simp only [ht, State.record_setSlot_self, hrec]

/-- Settles O57: the miss is `SlotEntry.missed`; at the threshold the record leaves its slot, stays lost, or is lost with
`SlotEntry.lost`, its loss event changing moving slots at most. -/
theorem missesCountToLoss : Obligations.MissesCountToLoss := by
  intro s i h reason hr hc
  obtain ⟨hrec, hmiss⟩ := State.miss_eq hr reason hc
  have hslot := SlotEntry.missed_eq (s.slot i) h reason hc
  dsimp only at hrec hmiss ⊢
  generalize hent : (s.slot i).missed h reason s.link.lossThreshold = entry at hrec hmiss hslot
  have hcount : (h.missed reason s.link.lossThreshold).missCount = min (h.missCount + 1) s.link.lossThreshold := rfl
  have hstate : (h.missed reason s.link.lossThreshold).state = h.state := rfl
  refine ⟨fun hlt => ?_, fun heq => ⟨fun hs => ?_, fun hs => ?_, fun hs => ?_, fun hs => ?_⟩⟩
  · rw [hmiss, if_neg (by omega), hslot]
    rfl
  · have ht : s.miss i reason = s.slotReleasedNoted i h .admitUnanswered := by
      rw [hmiss, if_pos (hcount.trans heq), State.thresholdEvent]
      simp only [hstate, hs]
      exact State.leaveSlotNoted_eq s i entry _ rfl
    obtain ⟨h1, h2, -⟩ := s.slotReleasedNoted_spec i h .admitUnanswered
    exact ⟨ht, ht ▸ h1, ht ▸ h2⟩
  · have ht : s.miss i reason = s.slotReleasedNoted i h .retiredUnconfirmed := by
      rw [hmiss, if_pos (hcount.trans heq), State.thresholdEvent]
      simp only [hstate, hs]
      exact State.leaveSlotNoted_eq s i entry _ rfl
    obtain ⟨h1, h2, -⟩ := s.slotReleasedNoted_spec i h .retiredUnconfirmed
    exact ⟨ht, ht ▸ h1, ht ▸ h2⟩
  · rw [hmiss, if_pos (hcount.trans heq), State.thresholdEvent]
    simp only [hstate, hs]
    rw [hslot, ← hs]
    rfl
  · have hlose : s.miss i reason = (s.setSlot i entry).lose i (h.missed reason s.link.lossThreshold) := by
      rw [hmiss, if_pos (hcount.trans heq), State.thresholdEvent]
      rcases hs with e | e | e | e <;> simp only [hstate, e]
    obtain ⟨h1, h2, h3, h4, h5⟩ := State.lose_spec hrec (h.missed reason s.link.lossThreshold)
    rw [← hlose] at h1 h2 h3 h4 h5
    rw [State.slot_setSlot_self, hslot] at h1
    have hv := State.lose_eq hrec (h.missed reason s.link.lossThreshold)
    rw [← hlose, State.setSlot_setSlot, State.slot_setSlot_self, hslot] at hv
    refine ⟨fun hne => ?_, fun hj hjog => ?_, ?_⟩
    · rw [hv, if_neg (by rwa [hstate])]
      unfold State.groupLoss
      cases hg : h.group <;> simp only [Hoist.missed, hg] <;> rfl
    · rw [hlose, State.lose_jogging hrec hjog (by rwa [hstate]), State.setSlot_setSlot, State.slot_setSlot_self, hslot]
      unfold State.groupLoss
      cases hg : h.group <;> simp only [Hoist.missed, hg] <;> rfl
    · refine ⟨_, congrArg SlotEntry.record h1, rfl, rfl, rfl, rfl, rfl, rfl, rfl, ?_, ?_, ?_, rfl, rfl, rfl, rfl, rfl,
          ?_, h2, h3, h4.port, fun j hij hjog ho => ?_⟩
      · simp
      · simp
      · simp [Hoist.missed]
      · rw [h1]; rfl
      · have hsj : (s.setSlot i entry).slot j = s.slot j := by rw [State.slot_setSlot, if_neg fun e => hij e.symm]
        rw [h5 j hij hjog (by rwa [State.record, hsj]), hsj]

end Sys2Proof.Machine

/-! ## Whole replies: judging, IDENT and STATUS -/

namespace Sys2Proof.Machine

/-! ### The judging of a whole frame (R151) -/

/-- The kind and the address in a head byte (R141). -/
theorem kind_head (kind : BitVec 2) (address : BitVec 6) : (kind ++ address : Byte).extractLsb' 6 2 = kind := by
  revert kind address; decide

theorem address_head (kind : BitVec 2) (address : BitVec 6) : (kind ++ address : Byte).extractLsb' 0 6 = address := by
  revert kind address; decide

/-- The CRC check of a frame that ends with the CRC of the bytes before it (R140). -/
theorem crcMatches_withCrc (body : List Byte) : crcMatches (withCrc body) = true := by
  have hl : (withCrc body).length - 2 = body.length := by simp [withCrc]
  rw [crcMatches, hl]
  simp [withCrc]

/-- The three bytes of a reported height hold it. -/
theorem frameHeight_status (height : BitVec 24) (b0 b1 b5 b6 b7 b8 b9 : Byte) :
    frameHeight [b0, b1, height.extractLsb' 16 8, height.extractLsb' 8 8, height.extractLsb' 0 8, b5, b6, b7, b8, b9] =
      height.toNat := by
  have h := height.isLt
  simp only [frameHeight, twoBytes, wordOf, List.getD_cons_succ, List.getD_cons_zero, BitVec.toNat_append,
    BitVec.extractLsb'_toNat, Nat.shiftRight_eq_div_pow]
  rw [← Nat.shiftLeft_add_eq_or_of_lt (by omega), Nat.shiftLeft_eq]
  omega

/-- A frame of its kind's length and with its CRC passes the checks that are left to its address, kind, sequence bit and
height. -/
theorem judgeReply_none {p : PollInFlight} {address : Nat} {head : Byte} {rest : List Byte}
    (hlen : replyLength head = some (withCrc (head :: rest)).length)
    (ha : (head.extractLsb' 0 6).toNat = address) (hk : head.extractLsb' 6 2 = p.frame.replyKind)
    (hs : p.frame = .run → ((withCrc (head :: rest)).getD 7 0).getLsbD 7 = p.seqBit)
    (hh : p.frame = .run → frameHeight (withCrc (head :: rest)) ≤ 500000) :
    judgeReply p false address (withCrc (head :: rest)) = none := by
  have hhead : (withCrc (head :: rest)).headD 0 = head := rfl
  have hne : (withCrc (head :: rest)).isEmpty = false := rfl
  unfold judgeReply
  simp only [hhead, hne, crcMatches_withCrc]
  rw [if_neg (by simp), if_neg (by simp [hlen]), if_neg (by simp), if_neg (by simp [ha]), if_neg (by simp [hk]),
    if_neg fun x => x.2 (hs x.1), if_neg fun x => absurd (hh x.1) (Nat.not_le.2 x.2)]

/-- A whole frame of a reply that is received in time, judged good, is applied, and ends the poll (R149, R152). -/
theorem State.takeFrame_good {s : State} {p : PollInFlight} {h : Hoist} {bytes : List Byte} (rest : Nat)
    (hp : s.link.poll = some p) (hst : p.stage = .receiving false) (ho : p.orphaned = false)
    (hr : s.record p.slot = some h) (hj : judgeReply p false h.address bytes = none) (hk : h.pollFrame = p.frame) :
    s.takeFrame bytes rest = ((s.applyReply p bytes).endPoll p.slot rest).deliverWaiting := by
  have hk' : h.kindMismatch p = false := by simp [Hoist.kindMismatch, hk]
  simp [State.takeFrame, hp, hst, ho, State.judgeAndTake, hr, hj, hk']

theorem withCrc_ident (address : BitVec 6) (flags : Byte) (ratedLoad ratedSpeed : BitVec 16) :
    identFrame address flags ratedLoad ratedSpeed (crc16 [(1#2) ++ address, flags, hiByte ratedLoad, loByte ratedLoad,
      hiByte ratedSpeed, loByte ratedSpeed]) =
    withCrc [(1#2) ++ address, flags, hiByte ratedLoad, loByte ratedLoad, hiByte ratedSpeed, loByte ratedSpeed] := rfl

@[simp] theorem State.nodeMap_endPoll (s : State) (i : Slot) (rest : Nat) : (s.endPoll i rest).nodeMap = s.nodeMap := by
  unfold State.endPoll; dsimp only; split <;> simp

@[simp] theorem State.pollList_endPoll (s : State) (i : Slot) (rest : Nat) :
    (s.endPoll i rest).link.pollList = s.link.pollList := by
  unfold State.endPoll; dsimp only; split <;> simp [Link.shutPoll, Link.endExchange]

/-! ### A valid reply (R103, R152) -/

/-- The slot after any valid reply: no misses, COND_LINKERR gone, what stays accrued. -/
theorem State.acceptReply_eq {s : State} {i : Slot} {h : Hoist} (hr : s.record i = some h) :
    s.acceptReply i = s.setSlot i { s.slot i with
      attention := decide ((s.slot i).attention = true ∨
        ∃ c ∈ h.current.remove .linkErr, (c.condClass = .stop ∨ c.condClass = .maskable) ∧ c ∉ h.accrued)
      record := some { h with
        missCount := 0
        current := h.current.remove .linkErr
        accrued := h.accrued.union (h.current.remove .linkErr) } } := by
  rw [State.acceptReply, State.modSlot_eq, State.modRecord_eq_setSlot hr, State.setSlot_setSlot, State.slot_setSlot_self,
    SlotEntry.removeCurrent_eq (h := { h with missCount := 0 }) rfl,
    SlotEntry.writeCurrent_eq (h := { h with missCount := 0 }) rfl]

theorem ratedValid_iff (load speed : Nat) :
    ratedValid load speed = true ↔ 125 ≤ load ∧ load ≤ 2000 ∧ 10 ≤ speed ∧ speed ≤ 300 := by
  simp [ratedValid, and_assoc]

/-- A valid IDENT reply completes the admission or fails it (R10). -/
theorem State.takeIdent_eq {s : State} {i : Slot} {h : Hoist} (hr : s.record i = some h) (flags : Byte)
    (load speed : Nat) :
    s.takeIdent i flags load speed =
      if ratedValid load speed = true then
        s.setSlot i { s.slot i with
          attention := true
          record := some { h with
            state := .ready
            nodeFlags := some flags
            ratedLoad := some load
            ratedSpeed := some speed
            missCount := 0
            current := h.current.remove .linkErr
            accrued := h.accrued.union (h.current.remove .linkErr) } }
      else s.slotReleasedNoted i h .admitRefused := by
  have ht := State.acceptReply_eq hr
  unfold State.takeIdent
  rw [ht, State.modRecord_eq_setSlot (State.record_setSlot_self ..), State.setSlot_setSlot, State.slot_setSlot_self]
  dsimp only
  rw [State.record_setSlot_self]
  dsimp only
  split
  · rw [State.slotAttention, State.modSlot_eq, State.modRecord_eq_setSlot (State.record_setSlot_self ..),
      State.setSlot_setSlot, State.setSlot_setSlot, State.slot_setSlot_self, State.slot_setSlot_self]
  · exact State.leaveSlotNoted_eq s i _ _ rfl

/-- Settles O55: the frame is good, so the poll ends with `State.takeIdent`. -/
theorem identReplyAdmits : Obligations.IdentReplyAdmits := by
  intro s p h flags ratedLoad ratedSpeed address hp hst ho hf hr hs ha
  have hk : h.pollFrame = p.frame := by rw [hf, Hoist.pollFrame, if_pos hs]
  have run : exec (.identReply address flags ratedLoad ratedSpeed (crc16 [(1#2) ++ address, flags, hiByte ratedLoad,
      loByte ratedLoad, hiByte ratedSpeed, loByte ratedSpeed])) s =
      .next (State.repace (State.deliverWaiting (State.endPoll
        (s.takeIdent p.slot flags ratedLoad.toNat ratedSpeed.toNat) p.slot 30))) := by
    refine congrArg (fun t => Host.Outcome.next (State.repace t)) ?_
    rw [withCrc_ident, State.takeFrame_good _ hp hst ho hr ?_ hk]
    · simp only [State.applyReply, hf, withCrc, List.cons_append, List.getD_cons_succ, List.getD_cons_zero, twoBytes,
        wordOf_hiByte_loByte]
      rfl
    · refine judgeReply_none ?_ ?_ ?_ ?_ ?_
      · rw [replyLength, kind_head]; rfl
      · rw [address_head, ha]
      · rw [kind_head, hf]; rfl
      · rw [hf]; exact PollFrame.noConfusion
      · rw [hf]; exact PollFrame.noConfusion
  rw [State.takeIdent_eq hr] at run
  have bad (hg : ¬ (125 ≤ ratedLoad.toNat ∧ ratedLoad.toNat ≤ 2000 ∧ 10 ≤ ratedSpeed.toNat ∧ ratedSpeed.toNat ≤ 300)) :=
    run.trans (by rw [if_neg (fun x => hg ((ratedValid_iff ..).1 x))])
  obtain ⟨h1, h2, h3⟩ := s.slotReleasedNoted_spec p.slot h .admitRefused
  refine ⟨fun hg => ?_, bad, fun hg => ⟨_, bad hg, ?_, ?_, ?_⟩⟩
  · rw [if_pos ((ratedValid_iff ..).2 hg)] at run
    exact run
  · rw [State.slot_repace, ← h1]
    have hn : (s.slotReleasedNoted p.slot h .admitRefused).record p.slot = none := congrArg SlotEntry.record h1
    exact ((State.endPoll_moves ..).trans (State.deliverWaiting_moves _)).slot_empty hn
  · rw [State.nodeMap_repace, (State.deliverWaiting_spec _).1, State.nodeMap_endPoll, h2]
  · obtain ⟨-, -, -, -, -, hl⟩ := State.deliverWaiting_spec ((s.slotReleasedNoted p.slot h .admitRefused).endPoll p.slot 30)
    rw [State.pollList_repace, hl, State.pollList_endPoll, h3]

end Sys2Proof.Machine

/-! ## The taking of a STATUS reply -/

namespace Sys2Proof.Machine

/-! ### The transition of R13 -/

/-- The record that a STATUS reply leaves to its evaluation: the reported fields, no misses, and the transition of its
state (R13, R17, R20, R152). `lostTo` is the state to which a lost record recovers. -/
def Hoist.replied (h : Hoist) (flags : Byte) (height load : Nat) (lostTo : HoistState) : Hoist :=
  { h with
    state := match h.state with
      | .stopping => if flags.getLsbD 7 = true ∧ flags.getLsbD 6 = false then .ready else .stopping
      | .lost => lostTo
      | other => other
    nodeFlags := some flags
    height := some height
    load := if load ≤ 8190 then some load else if load = 65535 then none else some 8191
    missCount := 0
    current := if h.state = .lost then (h.current.remove .linkErr).remove .lost else h.current.remove .linkErr
    accrued := h.accrued.union (h.current.remove .linkErr) }

/-- The slot with it: attention for what the removal of COND_LINKERR accrues (R104, log 9). -/
def SlotEntry.replied (e : SlotEntry) (h : Hoist) (flags : Byte) (height load : Nat) (lostTo : HoistState) : SlotEntry :=
  { e with
    attention := decide (e.attention = true ∨
      ∃ c ∈ h.current.remove .linkErr, (c.condClass = .stop ∨ c.condClass = .maskable) ∧ c ∉ h.accrued)
    record := some (h.replied flags height load lostTo) }

/-- The state to which a lost record recovers (R20). -/
def State.lostTo (s : State) (h : Hoist) : HoistState :=
  if ∃ k ∈ h.group, (s.group k).state = .stopping then .stopping else .ready

theorem readLoad_eq (w : Nat) :
    readLoad w = if w ≤ 8190 then some w else if w = 65535 then none else some 8191 := by
  unfold readLoad Config.loadOverrange
  by_cases h : w = 65535
  · simp [h]
  · by_cases h' : w ≤ 8190
    · rw [if_neg h, if_pos h', Nat.min_eq_left (by omega)]
    · rw [if_neg h, if_neg h', if_neg h, Nat.min_eq_right (by omega)]

theorem atRest_iff (flags : Byte) : atRest flags = true ↔ flags.getLsbD 7 = true ∧ flags.getLsbD 6 = false := by
  simp [atRest, brakeSet, runSet]

/-- A record with the accepted reply's fields, before the transition of its state. -/
theorem State.accept_report {s : State} {i : Slot} {h : Hoist} (hr : s.record i = some h) (flags : Byte)
    (height load : Nat) :
    (s.acceptReply i).modRecord i (fun r => r.report flags height load) =
      s.setSlot i { (s.slot i).replied h flags height load .lost with
        record := some
          { h.replied flags height load .lost with state := h.state, current := h.current.remove .linkErr } } := by
  rw [State.acceptReply_eq hr, State.modRecord_eq_setSlot (State.record_setSlot_self ..), State.setSlot_setSlot,
    State.slot_setSlot_self]
  simp only [Hoist.report, readLoad_eq, SlotEntry.replied, Hoist.replied]

/-- A STATUS reply of a record that stays in its slot: the transition, then the evaluation in the new state (R13). -/
theorem State.takeStatus_eq {s : State} {i : Slot} {h : Hoist} (hr : s.record i = some h) (flags : Byte)
    (height load : Nat) (hn : ¬ (h.state = .retiring ∧ flags.getLsbD 7 = true)) :
    s.takeStatus i flags height load =
      (s.setSlot i ((s.slot i).replied h flags height load (s.lostTo h))).evaluate i
        (decide (h.state = .stopping ∧ flags.getLsbD 7 = true ∧ flags.getLsbD 6 = false)) := by
  unfold State.takeStatus
  rw [State.accept_report hr]
  have hstopped : ∀ e : SlotEntry, e.record.map (·.state) = some h.state →
      (s.setSlot i e).reportsStopped i flags =
        decide (h.state = .stopping ∧ flags.getLsbD 7 = true ∧ flags.getLsbD 6 = false) := by
    intro e he
    have : (s.setSlot i e).hoistState i = some h.state := by rw [State.hoistState, State.record_setSlot_self, he]
    rw [Bool.eq_iff_iff, State.reportsStopped, this]
    simp [atRest_iff]
  dsimp only
  rw [hstopped _ rfl]
  congr 1
  unfold State.statusTransition
  rw [State.record_setSlot_self]
  dsimp only
  cases hs : h.state with
  | stopping =>
    by_cases hr' : flags.getLsbD 7 = true ∧ flags.getLsbD 6 = false
    · simp only [if_pos ((atRest_iff flags).2 hr')]
      rw [State.modRecord_eq_setSlot (State.record_setSlot_self ..), State.setSlot_setSlot, State.slot_setSlot_self]
      simp only [SlotEntry.replied, Hoist.replied, hs, if_pos hr']
      rfl
    · simp only [if_neg fun x => hr' ((atRest_iff flags).1 x)]
      simp only [SlotEntry.replied, Hoist.replied, hs, if_neg hr']
      rfl
  | lost =>
    simp only [State.recover, State.group_setSlot]
    rw [State.modSlot_eq, State.slot_setSlot_self, SlotEntry.removeCurrent_eq rfl,
      SlotEntry.writeCurrent_accrued rfl (CondSet.wf_union ..) fun c hc =>
        (CondSet.mem_union ..).2 (.inr ((CondSet.mem_remove ..).1 hc).1)]
    rw [State.setSlot_setSlot, State.modRecord_eq_setSlot (State.record_setSlot_self ..), State.setSlot_setSlot,
      State.slot_setSlot_self]
    have hst : (match h.group with
        | some k => if (s.group k).state = .stopping then HoistState.stopping else .ready
        | none => .ready) = s.lostTo h := by
      unfold State.lostTo
      cases h.group <;> simp
    simp only [SlotEntry.replied, Hoist.replied, hs, if_true, ← hst]
    rfl
  | retiring =>
    have hb : brakeSet flags ≠ true := fun x => hn ⟨hs, x⟩
    simp only [if_neg hb]
    simp only [SlotEntry.replied, Hoist.replied, hs]
    rfl
  | _ =>
    simp only [SlotEntry.replied, Hoist.replied, hs]
    rfl

/-! ### The evaluation, whole (R71, R81, R103) -/

/-- The record that an evaluation writes, with the conditions found as its current set (R103, R104). -/
def State.evaluatedRecord (s : State) (h : Hoist) : Hoist :=
  { (s.evaluation h).hoist with
    current := (s.evaluation h).found
    accrued := h.accrued.union (s.evaluation h).found }

/-- The state in which the evaluation of a record has been written. -/
def State.evaluated (s : State) (i : Slot) (h : Hoist) : State :=
  s.setSlot i (({ s.slot i with record := some (s.evaluation h).hoist } : SlotEntry).writeCurrent (s.evaluation h).found)

/-- An evaluation never writes the accrued set itself. -/
theorem State.accrued_evaluation (s : State) (h : Hoist) : (s.evaluation h).hoist.accrued = h.accrued := by
  rw [s.evaluation_fields h]

theorem State.state_evaluation (s : State) (h : Hoist) : (s.evaluation h).hoist.state = h.state := by
  rw [s.evaluation_fields h]

theorem State.group_evaluation (s : State) (h : Hoist) : (s.evaluation h).hoist.group = h.group := by
  rw [s.evaluation_fields h]

theorem State.state_evaluatedRecord (s : State) (h : Hoist) : (s.evaluatedRecord h).state = h.state :=
  s.state_evaluation h

theorem State.group_evaluatedRecord (s : State) (h : Hoist) : (s.evaluatedRecord h).group = h.group :=
  s.group_evaluation h

theorem State.record_evaluated (s : State) (i : Slot) (h : Hoist) :
    (s.evaluated i h).record i = some (s.evaluatedRecord h) := by
  rw [State.evaluated, State.record_setSlot_self, SlotEntry.writeCurrent_record rfl, s.accrued_evaluation h]
  rfl

/-- The events of an evaluation in their order: condition, landed, stopped, and the jog's (R81, R131). -/
def State.handed (s : State) (i : Slot) (k : Option GroupId) (before after stopped : Bool) : State :=
  (((s.handCondition i).handLanded k before after).handStopped k stopped).jogProgress i

/-- An evaluation writes the record; then its events are handed on, at once or, where a moving member raises some, later
(R71, R81, R87, log 27). -/
theorem State.evaluate_cases {s : State} {i : Slot} {h : Hoist} (hr : s.record i = some h) (stopped : Bool) :
    let t := s.evaluated i h
    let u : State := { t with freeCount := t.freeCount + 1 }
    (t.movingEvents i h.landed = none ∧
      s.evaluate i stopped = t.handed i h.group h.landed (s.evaluation h).hoist.landed stopped) ∨
    ∃ e, t.movingEvents i h.landed = some e ∧
      (s.evaluate i stopped = u.handed i h.group h.landed (s.evaluation h).hoist.landed stopped ∨
        s.evaluate i stopped = { u with eventsWaiting := some e }) := by
  unfold State.evaluate
  rw [hr]
  dsimp only
  rw [State.modSlot_eq, ← State.evaluated]
  cases (s.evaluated i h).movingEvents i h.landed with
  | none => exact .inl ⟨rfl, rfl⟩
  | some e =>
    refine .inr ⟨e, rfl, ?_⟩
    dsimp only
    split
    · exact .inr rfl
    · exact .inl rfl

/-- Only a moving member of a group raises events that can wait, and they are its own (R81). -/
theorem State.movingEvents_some {s : State} {i : Slot} {before : Bool} {e : MemberEvents}
    (he : s.movingEvents i before = some e) :
    ∃ h k, s.record i = some h ∧ h.state = .moving ∧ h.group = some k ∧
      e = ⟨k, i, s.detected k h, !before && h.landed⟩ := by
  unfold State.movingEvents at he
  cases hr : s.record i with
  | none => rw [hr] at he; cases he
  | some h =>
    rw [hr] at he
    dsimp only at he
    split at he
    · next k hs hg =>
      split at he
      · exact ⟨h, k, rfl, hs, hg, (Option.some.inj he).symm⟩
      · cases he
    · cases he

/-- The jog's own step of an evaluation: nothing, or the end of the jog of the record that jogs. -/
theorem State.jogProgress_cases (s : State) (i : Slot) :
    s.jogProgress i = s ∨ ∃ h cause, s.record i = some h ∧ h.state = .jogging ∧ s.jogProgress i = s.endJog cause := by
  unfold State.jogProgress
  cases hr : s.record i with
  | none => exact .inl rfl
  | some h =>
    dsimp only
    split
    · next hs =>
      split
      · exact .inr ⟨h, _, rfl, hs, rfl⟩
      · split
        · exact .inr ⟨h, _, rfl, hs, rfl⟩
        · exact .inl rfl
    · exact .inl rfl

/-- The events before the jog's. -/
theorem State.handed_work (s : State) (i : Slot) (k : Option GroupId) (before after stopped : Bool) :
    s.GroupWork (((s.handCondition i).handLanded k before after).handStopped k stopped) :=
  ((s.handCondition_work i).trans (State.handLanded_work ..)).trans (State.handStopped_work ..)

/-- Of a record, the jog end and the work of GENG reach the motion alone. -/
theorem State.map_record_handed (s : State) {α : Type} (p : Hoist → α) (hp : ∀ h r : Hoist, h.Motion r → p r = p h)
    (he : ∀ h : Hoist, p h.endJog = p h) (i j : Slot) (k : Option GroupId) (before after stopped : Bool) :
    ((s.handed i k before after stopped).record j).map p = (s.record j).map p := by
  rw [← (s.handed_work i k before after stopped).map_record p hp j, State.handed]
  generalize ((s.handCondition i).handLanded k before after).handStopped k stopped = t
  rcases t.jogProgress_cases i with h | ⟨-, cause, -, -, h⟩ <;> rw [h]
  rw [State.record, State.slot_endJog]
  split
  · show ((t.record j).map Hoist.endJog).map p = _
    rw [Option.map_map]
    cases t.record j with
    | none => rfl
    | some h => exact congrArg some (he h)
  · rfl

/-- A record that does not jog before the events does not jog after GENG's work on them. -/
theorem State.GroupWork.not_jogging {s t : State} (w : s.GroupWork t) {i : Slot}
    (hi : ∀ h ∈ s.record i, h.state ≠ .jogging) : ∀ h ∈ t.record i, h.state ≠ .jogging := by
  intro r hr
  rcases w.record i with e | ⟨h, v, hh, hm, e⟩
  · exact hi r (e ▸ hr)
  · cases hr.symm.trans e
    rcases hm.after with x | x | x <;> simp [x]

/-- The events of a record that does not jog are GENG's work alone. -/
theorem State.handed_of_ne {s : State} {i : Slot} (hi : ∀ h ∈ s.record i, h.state ≠ .jogging) (k : Option GroupId)
    (before after stopped : Bool) :
    s.handed i k before after stopped = ((s.handCondition i).handLanded k before after).handStopped k stopped := by
  have hn := (s.handed_work i k before after stopped).not_jogging hi
  unfold State.handed
  generalize ((s.handCondition i).handLanded k before after).handStopped k stopped = t at hn ⊢
  rcases t.jogProgress_cases i with h | ⟨h, -, hr, hs, -⟩
  · exact h
  · exact absurd hs (hn h hr)

/-- The condition event of a record leaves every slot whose record does not move. -/
theorem State.slot_handCondition {s : State} {j : Slot} (hj : ∀ h ∈ s.record j, h.state ≠ .moving) (i : Slot) :
    (s.handCondition i).slot j = s.slot j := by
  unfold State.handCondition
  split
  · rfl
  · split
    · rfl
    · split
      · rfl
      · exact State.slot_conditionEvent hj ..

/-- The events of a record that neither moves nor jogs, and that has not landed anew, leave its slot. -/
theorem State.slot_handed {s : State} {i : Slot} (hm : ∀ h ∈ s.record i, h.state ≠ .moving ∧ h.state ≠ .jogging)
    (k : Option GroupId) (landed stopped : Bool) : (s.handed i k landed landed stopped).slot i = s.slot i := by
  have hl : ∀ t : State, t.handLanded k landed landed = t := fun t => by
    unfold State.handLanded; cases k <;> cases landed <;> rfl
  have hs : ∀ t : State, (t.handStopped k stopped).slot i = t.slot i := fun t => by
    unfold State.handStopped
    split
    · split <;> simp
    · rfl
  rw [State.handed_of_ne fun h hh => (hm h hh).2, hl, hs, State.slot_handCondition fun h hh => (hm h hh).1]

/-- A record outside every group raises no event of a group. -/
theorem State.handed_noGroup {s : State} {i : Slot} {h : Hoist} (hr : s.record i = some h) (hg : h.group = none)
    (hj : h.state ≠ .jogging) (before after stopped : Bool) : s.handed i none before after stopped = s := by
  rw [State.handed_of_ne fun r hr' => by rw [hr] at hr'; cases hr'; exact hj]
  simp only [State.handStopped, State.handLanded, State.handCondition, hr, hg]

/-- An evaluation outside HST_MOVING leaves the landed field. -/
theorem State.landed_evaluation {s : State} {h : Hoist} (hs : h.state ≠ .moving) :
    (s.evaluation h).hoist.landed = h.landed := by
  unfold State.evaluation
  cases h' : h.state <;> first | exact absurd h' hs | rfl

end Sys2Proof.Machine

/-! ## STATUS replies: what they leave of the polled record and of the rest -/

namespace Sys2Proof.Machine

theorem withCrc_status (address : BitVec 6) (flags : Byte) (height : BitVec 24) (load : BitVec 16) (echo : Byte) :
    statusFrame address flags height load echo (crc16 [(0#2) ++ address, flags, height.extractLsb' 16 8,
      height.extractLsb' 8 8, height.extractLsb' 0 8, hiByte load, loByte load, echo]) =
    withCrc [(0#2) ++ address, flags, height.extractLsb' 16 8, height.extractLsb' 8 8, height.extractLsb' 0 8,
      hiByte load, loByte load, echo] := rfl

theorem frameLoad_status (b0 b1 b2 b3 b4 b7 b8 b9 : Byte) (load : BitVec 16) :
    frameLoad [b0, b1, b2, b3, b4, hiByte load, loByte load, b7, b8, b9] = load.toNat := by
  simp only [frameLoad, twoBytes, List.getD_cons_succ, List.getD_cons_zero, wordOf_hiByte_loByte]

/-- A valid STATUS frame is taken for the polled record and ends the poll. -/
theorem State.exec_statusReply {s : State} {p : PollInFlight} {h : Hoist} {flags echo : Byte} {height : BitVec 24}
    {load : BitVec 16} {address : BitVec 6} (hp : s.link.poll = some p) (hst : p.stage = .receiving false)
    (ho : p.orphaned = false) (hf : p.frame = .run) (hr : s.record p.slot = some h) (hs : h.state ≠ .admitting)
    (ha : address.toNat = h.address) (hq : echo.getLsbD 7 = p.seqBit) (hh : height.toNat ≤ 500000) :
    exec (.statusReply address flags height load echo (crc16 [(0#2) ++ address, flags, height.extractLsb' 16 8,
      height.extractLsb' 8 8, height.extractLsb' 0 8, hiByte load, loByte load, echo])) s =
    .next (State.repace ((s.takeStatus p.slot flags height.toNat load.toNat).endPoll p.slot 30).deliverWaiting) := by
  have hk : h.pollFrame = p.frame := by rw [hf, Hoist.pollFrame, if_neg hs]
  refine congrArg (fun t => Host.Outcome.next (State.repace t)) ?_
  rw [withCrc_status, State.takeFrame_good _ hp hst ho hr ?_ hk]
  · simp only [State.applyReply, hf, withCrc, List.cons_append, List.nil_append, List.getD_cons_succ,
      List.getD_cons_zero, frameHeight_status, frameLoad_status]
    rfl
  · refine judgeReply_none ?_ ?_ ?_ ?_ ?_
    · rw [replyLength, kind_head]; rfl
    · rw [address_head, ha]
    · rw [kind_head, hf]; rfl
    · intro _
      simpa only [withCrc, List.cons_append, List.getD_cons_succ, List.getD_cons_zero] using hq
    · intro _
      simpa only [withCrc, List.cons_append, List.nil_append, frameHeight_status] using hh

/-- The reply of a retiring record with BRAKE set completes the retirement (R23). -/
theorem State.takeStatus_retired {s : State} {i : Slot} {h : Hoist} (hr : s.record i = some h) {flags : Byte}
    (height load : Nat) (hs : h.state = .retiring) (hb : flags.getLsbD 7 = true) :
    s.takeStatus i flags height load = s.slotReleasedNoted i h .retired := by
  have hn : (s.slotReleasedNoted i h .retired).record i = none :=
    congrArg SlotEntry.record (s.slotReleasedNoted_spec i h .retired).1
  unfold State.takeStatus
  dsimp only
  rw [State.accept_report hr, State.statusTransition, State.record_setSlot_self]
  simp only [hs, brakeSet, hb, if_true]
  rw [State.leaveSlotNoted_eq s i _ (h := h) .retired ?_, State.evaluate, hn]
  rfl

/-- The replied record's state: a stopping one at rest is ready, a lost one recovers, any other keeps its state. -/
theorem Hoist.state_replied (h : Hoist) (flags : Byte) (height load : Nat) (lostTo : HoistState) :
    (h.replied flags height load lostTo).state = match h.state with
      | .stopping => if flags.getLsbD 7 = true ∧ flags.getLsbD 6 = false then .ready else .stopping
      | .lost => lostTo
      | other => other := rfl

theorem State.lostTo_cases (s : State) (h : Hoist) : s.lostTo h = .stopping ∨ s.lostTo h = .ready := by
  unfold State.lostTo; split
  · exact .inl rfl
  · exact .inr rfl

/-- A reply takes no record into HST_JOGGING, and out of it none. -/
theorem State.state_replied_jogging {s : State} {h : Hoist} (hs : h.state ≠ .jogging) (flags : Byte) (height load : Nat) :
    (h.replied flags height load (s.lostTo h)).state ≠ .jogging := by
  rw [Hoist.state_replied]
  split
  · split <;> exact HoistState.noConfusion
  · rcases s.lostTo_cases h with e | e <;> rw [e] <;> exact HoistState.noConfusion
  · exact hs

/-- What neither an evaluation, nor an event of a group, nor the jog end writes in a record. -/
def Hoist.untracked (h : Hoist) :
    Option Byte × Option Nat × Option Nat × Nat × Option MissReason × Bool × Nat × Option GroupId :=
  (h.nodeFlags, h.height, h.load, h.missCount, h.lastMiss, h.seqBit, h.address, h.group)

theorem Hoist.Motion.untracked {h r : Hoist} (a : h.Motion r) : r.untracked = h.untracked := by rw [a.fields]; rfl

theorem Hoist.untracked_endJog (h : Hoist) : h.endJog.untracked = h.untracked := by
  unfold Hoist.endJog; split <;> rfl

/-- The evaluation and its events leave of the evaluated record what they do not track. -/
theorem State.untracked_evaluate {s : State} {i : Slot} {h : Hoist} (hr : s.record i = some h) (stopped : Bool) :
    ((s.evaluate i stopped).record i).map Hoist.untracked = some h.untracked := by
  have hw : (s.evaluatedRecord h).untracked = h.untracked := by
    unfold State.evaluatedRecord Hoist.untracked
    rw [s.evaluation_fields h]
  have ht := s.record_evaluated i h
  rw [← hw]
  rcases State.evaluate_cases hr stopped with ⟨-, e⟩ | ⟨v, -, e | e⟩ <;> rw [e]
  · rw [State.map_record_handed _ _ (fun _ _ m => m.untracked) Hoist.untracked_endJog, ht, Option.map_some]
  · rw [State.map_record_handed _ _ (fun _ _ m => m.untracked) Hoist.untracked_endJog]
    exact congrArg (Option.map Hoist.untracked) ht
  · exact congrArg (Option.map Hoist.untracked) ht

/-- The slot of an evaluated record that neither moves nor jogs is as the evaluation wrote it. -/
theorem State.record_evaluate_still {s : State} {i : Slot} {h : Hoist} (hr : s.record i = some h)
    (hm : h.state ≠ .moving) (hj : h.state ≠ .jogging) (stopped : Bool) :
    (s.evaluate i stopped).record i = some (s.evaluatedRecord h) := by
  have ht := s.record_evaluated i h
  have hstill : ∀ r ∈ (s.evaluated i h).record i, r.state ≠ .moving ∧ r.state ≠ .jogging := by
    intro r hr'
    rw [ht] at hr'
    cases hr'
    rw [s.state_evaluatedRecord h]
    exact ⟨hm, hj⟩
  rcases State.evaluate_cases hr stopped with ⟨-, e⟩ | ⟨v, hv, -⟩
  · rw [e, State.landed_evaluation hm, State.record, State.slot_handed hstill]
    exact ht
  · obtain ⟨r, -, hr', hs, -⟩ := State.movingEvents_some hv
    exact absurd hs (hstill r hr').1

/-- An evaluation outside a jog touches the tables, the events that wait and the count of free values; of the other slots
at most the motion of records that move or stand ready. -/
theorem State.evaluate_frame {s : State} {i : Slot} {h : Hoist} (hr : s.record i = some h) (hj : h.state ≠ .jogging)
    (stopped : Bool) :
    let t := s.evaluate i stopped
    t.nodeMap = s.nodeMap ∧ t.link = s.link ∧ t.safety = s.safety ∧ t.port = s.port ∧
      (s.evaluated i h).Moves t ∧ (h.group = none → t = s.evaluated i h) := by
  have ht := s.record_evaluated i h
  have hnj : ∀ r ∈ (s.evaluated i h).record i, r.state ≠ .jogging := by
    intro r hr'
    rw [ht] at hr'
    cases hr'
    rwa [s.state_evaluatedRecord h]
  have hg : (s.evaluatedRecord h).group = h.group := s.group_evaluatedRecord h
  dsimp only
  rcases State.evaluate_cases hr stopped with ⟨-, e⟩ | ⟨v, hv, e | e⟩ <;> rw [e]
  · have w := (s.evaluated i h).handed_work i h.group h.landed (s.evaluation h).hoist.landed stopped
    rw [← State.handed_of_ne hnj] at w
    refine ⟨w.tables.nodeMap, w.tables.link, w.tables.safety, w.tables.port, w.toMoves, fun hn => ?_⟩
    rw [hn]
    exact State.handed_noGroup ht (hg.trans hn) (hnj _ ht) ..
  · have w := ({ s.evaluated i h with freeCount := (s.evaluated i h).freeCount + 1 } : State).handed_work i h.group h.landed
      (s.evaluation h).hoist.landed stopped
    rw [← State.handed_of_ne (s := { s.evaluated i h with freeCount := (s.evaluated i h).freeCount + 1 }) hnj] at w
    refine ⟨w.tables.nodeMap, w.tables.link, w.tables.safety, w.tables.port,
      (State.Moves.of_tables (s := s.evaluated i h)
        (t := { s.evaluated i h with freeCount := (s.evaluated i h).freeCount + 1 }) rfl rfl).trans w.toMoves, fun hn => ?_⟩
    obtain ⟨r, k, hr', -, hk, -⟩ := State.movingEvents_some hv
    rw [ht] at hr'
    cases hr'
    rw [hg, hn] at hk
    cases hk
  · refine ⟨rfl, rfl, rfl, rfl, .of_tables rfl rfl, fun hn => ?_⟩
    obtain ⟨r, k, hr', -, hk, -⟩ := State.movingEvents_some hv
    rw [ht] at hr'
    cases hr'
    rw [hg, hn] at hk
    cases hk

/-- Settles O54: the frame is good, and the reply is `SlotEntry.replied` with the evaluation behind it. -/
theorem statusReplyTaken : Obligations.StatusReplyTaken := by
  refine ⟨fun s p h flags echo height load address hp hst ho hf hr hs ha hq hh =>
    State.exec_statusReply hp hst ho hf hr hs ha hq hh, fun s i h flags height load hr => ?_⟩
  have hrep := s.record_setSlot_self i ((s.slot i).replied h flags height load (s.lostTo h))
  refine ⟨fun hs hb => ?_, fun hn => State.takeStatus_eq hr flags height load hn, fun hn => ?_, fun hs hj => ?_⟩
  · rw [State.takeStatus_retired hr height load hs hb]
    exact ⟨rfl, (s.slotReleasedNoted_spec i h .retired).1⟩
  · rw [State.takeStatus_eq hr flags height load hn]
    obtain ⟨r, hr', hu⟩ := Option.map_eq_some_iff.1 (State.untracked_evaluate hrep _)
    simp only [Hoist.untracked, Prod.mk.injEq] at hu
    obtain ⟨u1, u2, u3, u4, u5, u6, u7, u8⟩ := hu
    have hstate (hm : (h.replied flags height load (s.lostTo h)).state ≠ .moving)
        (hj : (h.replied flags height load (s.lostTo h)).state ≠ .jogging) :
        r.state = (h.replied flags height load (s.lostTo h)).state := by
      rw [State.record_evaluate_still hrep hm hj] at hr'
      rw [← Option.some.inj hr', State.state_evaluatedRecord]
    rw [Hoist.state_replied] at hstate
    refine ⟨r, hr', u1, u2, u3, u4, u5, u6, u7, u8, fun hs => ?_, fun hs => ?_, fun hs => ?_, fun hs => ?_⟩
    · rw [hs] at hstate
      refine hstate ?_ ?_ <;> dsimp only <;> split <;> exact HoistState.noConfusion
    · rw [hs] at hstate
      exact hstate HoistState.noConfusion HoistState.noConfusion
    · rw [hs] at hstate
      exact hstate HoistState.noConfusion HoistState.noConfusion
    · rw [hs] at hstate
      refine hstate ?_ ?_ <;> dsimp only <;> rcases s.lostTo_cases h with e | e <;> rw [e] <;> exact HoistState.noConfusion
  · rw [State.takeStatus_eq hr flags height load fun x => hs x.1]
    obtain ⟨h1, h2, h3, h4, h5, h6⟩ := State.evaluate_frame hrep (State.state_replied_jogging hj flags height load)
      (decide (h.state = .stopping ∧ flags.getLsbD 7 = true ∧ flags.getLsbD 6 = false))
    refine ⟨h1, h2, h3, h4, fun hg => ?_, fun j hij ho => ?_⟩
    · rw [h6 hg, State.evaluated, State.setSlot_setSlot]
      exact (congrArg _ (State.slot_setSlot_self ..)).symm
    · have hj' : ∀ e, (s.setSlot i e).slot j = s.slot j := fun e => by
        rw [State.slot_setSlot, if_neg fun x => hij x.symm]
      have he : (((s.setSlot i ((s.slot i).replied h flags height load (s.lostTo h))).evaluated i
          (h.replied flags height load (s.lostTo h)))).slot j = s.slot j := by
        rw [State.evaluated, State.setSlot_setSlot, hj']
      rw [h5.slot_eq, he]
      intro r hr'
      rw [State.record, he] at hr'
      exact ho r hr'

end Sys2Proof.Machine

/-! ## POLL: the frame and the line -/

namespace Sys2Proof.Machine

/-! ### The bits on LINK_TX (R140) -/

@[simp] theorem length_lineBits (b : Byte) : (lineBits b).length = 10 := by simp [lineBits]

/-- A byte's ten bits: the start bit, the data bits least significant first, the stop bit. -/
theorem getD_lineBits (b : Byte) {m : Nat} (hm : m < 10) :
    (lineBits b).getD m true = if m = 0 then false else if m = 9 then true else b.getLsbD (m - 1) := by
  have : m = 0 ∨ m = 1 ∨ m = 2 ∨ m = 3 ∨ m = 4 ∨ m = 5 ∨ m = 6 ∨ m = 7 ∨ m = 8 ∨ m = 9 := by omega
  rcases this with h | h | h | h | h | h | h | h | h | h <;> subst h <;> rfl

/-- The bits of bytes sent one after another: bit `m` of byte `n`. -/
theorem getD_flatMap_lineBits (bytes : List Byte) {n m : Nat} (hn : n < bytes.length) (hm : m < 10) :
    (bytes.flatMap lineBits).getD (n * 10 + m) true = (lineBits (bytes.getD n 0)).getD m true := by
  induction bytes generalizing n with
  | nil => simp at hn
  | cons b rest ih =>
    rw [List.flatMap_cons]
    cases n with
    | zero =>
      rw [List.getD_append _ _ _ _ (by simp; omega)]
      simp
    | succ n =>
      rw [List.getD_append_right _ _ _ _ (by simp; omega), length_lineBits,
        show (n + 1) * 10 + m - 10 = n * 10 + m by omega, ih (by simpa using hn), List.getD_cons_succ]

/-- LINK_TX in microsecond `2 m + r` of byte `n`. -/
theorem txLevel_eq (bytes : List Byte) {n m r : Nat} (hn : n < bytes.length) (hm : m < 10) (hr : r < 2) :
    txLevel bytes ((bytes.length - n) * 20 - (2 * m + r)) =
      if m = 0 then false else if m = 9 then true else (bytes.getD n 0).getLsbD (m - 1) := by
  have hi : (frameMicros bytes - ((bytes.length - n) * 20 - (2 * m + r))) / Config.bitMicros = n * 10 + m := by
    simp only [frameMicros, Config.byteMicros, Config.bitMicros]
    omega
  rw [txLevel, hi, getD_flatMap_lineBits bytes hn hm, getD_lineBits _ hm]

/-! ### The frame of a poll (R148, R184) -/

/-- The head byte of a POLL_RUN is the address, that of a POLL_IDENT has bit 6 set beside it. -/
theorem headByte_run {a : Nat} (h : a < 64) : headByte 0 a = BitVec.ofNat 8 a := by
  have h' : ∀ a : Fin 64, headByte 0 a.val = BitVec.ofNat 8 a.val := by decide
  exact h' ⟨a, h⟩

theorem headByte_ident {a : Nat} (h : a < 64) : headByte 1 a = BitVec.ofNat 8 a + 0x40 := by
  have h' : ∀ a : Fin 64, headByte 1 a.val = BitVec.ofNat 8 a.val + 0x40 := by decide
  exact h' ⟨a, h⟩

/-- The bytes that a poll of a record sends before the CRC (R184). -/
def Hoist.pollBody (h : Hoist) (seq : Bool) : List Byte :=
  if h.state = .admitting then [BitVec.ofNat 8 h.address + 0x40, if seq then 0x80 else 0]
  else [BitVec.ofNat 8 h.address,
    BitVec.ofNat 8 ((match h.direction with | .none => 0 | .up => 1 | .down => 2) +
      (if 0 < h.demand then 4 else 0) + (if seq then 128 else 0)),
    BitVec.ofNat 8 (h.demand / 256), BitVec.ofNat 8 h.demand]

theorem Hoist.pollBytes_eq {h : Hoist} (ha : h.address < 64) (seq : Bool) :
    h.pollBytes seq = withCrc (h.pollBody seq) := by
  unfold Hoist.pollBytes Hoist.pollFrame Hoist.pollBody
  by_cases hs : h.state = .admitting
  · simp only [if_pos hs, pollIdentBytes, headByte_ident ha]
    cases seq <;> rfl
  · simp only [if_neg hs, pollRunBytes, headByte_run ha, controlByte, be, Nat.pow_one, Nat.pow_zero, Nat.div_one]
    cases h.direction <;> cases seq <;> by_cases hd : 0 < h.demand <;> simp [hd, yesNo, Direction.code]

theorem frameMicros_withCrc (body : List Byte) : frameMicros (withCrc body) = (body.length + 2) * 20 := by
  simp [frameMicros, withCrc, Config.byteMicros]

/-! ### The next slot (R144) -/

/-- The first listed slot above the last polled one, from the order of the poll list. -/
theorem Link.nextSlot_eq {l : Link} {i : Slot} {before later : List Slot} (hl : l.pollList = before ++ i :: later)
    (hb : ∀ j ∈ before, ∃ m ∈ l.lastPolled, j ≤ m) (hi : ∀ m ∈ l.lastPolled, m < i) : l.nextSlot = some i := by
  unfold Link.nextSlot
  rw [List.find?_eq_some_iff_append]
  refine ⟨?_, before, later, hl, fun j hj => ?_⟩
  · cases hp : l.lastPolled with
    | none => rfl
    | some m => simpa using hi m hp
  · obtain ⟨m, hm, hjm⟩ := hb j hj
    rw [Option.mem_def.1 hm]
    simpa using hjm

/-- Events that are taken in a round which has a slot left to poll leave the link as it is. -/
theorem State.link_deliverEvents {s : State} {i : Slot} (hn : s.link.nextSlot = some i) :
    s.deliverEvents.link = s.link := by
  unfold State.deliverEvents
  split
  · next e _ =>
    have ht := (State.takeEvents_tables { s with eventsWaiting := none } e).link
    have hd : (State.takeEvents { s with eventsWaiting := none } e).completeIfDone =
        State.takeEvents { s with eventsWaiting := none } e := by
      rw [State.completeIfDone, if_neg]
      rw [ht]
      exact fun x => Option.noConfusion rfl (heq_of_eq (hn.symm.trans x))
    rw [State.completeIdleRound, hd, ite_self, ht]
  · rfl

/-- Settles O52: the line's bits by `txLevel`, and the poll by `State.beginPoll` after the events that wait. -/
theorem pollFormsFrame : Obligations.PollFormsFrame := by
  refine ⟨fun s bytes n m r hn hm hr hl => ?_, fun s b m r hm hr hl => ?_, fun s hl => ?_, ?_⟩
  · rcases hl with hl | ⟨rfl, hl⟩
    · exact ⟨by rw [State.linkDe, hl], by rw [State.linkTx, hl, ← txLevel_eq bytes hn hm hr]⟩
    · exact ⟨by rw [State.linkDe, hl], by rw [State.linkTx, hl, ← txLevel_eq haltAllBytes hn hm hr]⟩
  · exact ⟨by rw [State.linkDe, hl], by rw [State.linkTx, hl]; exact congrArg some (txLevel_eq [b] (n := 0) (by simp) hm hr)⟩
  · rcases hl with hl | hl <;> exact ⟨by rw [State.linkDe, hl], by rw [State.linkTx, hl]⟩
  · intro s i h before later hround hhalt hpoll hline hlist hb hi
    refine ⟨fun he => State.deliverEvents_none he, fun hr ha => ?_⟩
    have hn := Link.nextSlot_eq hlist hb hi
    have hlink := State.link_deliverEvents hn
    have hfree : s.link.free = true := by simp [Link.free, hpoll, hline]
    have hpn : s.takePoll = s.deliverEvents.beginPoll i h := by
      unfold State.takePoll State.pollNext
      rw [hlink, if_pos ⟨hround, hfree, hhalt⟩, hn]
      dsimp only
      rw [hr]
    refine congrArg (fun t => Host.Outcome.next (State.repace t)) ?_
    show s.takePoll = _
    rw [hpn, State.beginPoll, State.modRecord_eq hr, Hoist.pollBytes_eq ha, frameMicros_withCrc]
    generalize s.deliverEvents = u at hlink
    unfold State.modLink
    rw [State.link_withRecord, hlink]
    rfl

end Sys2Proof.Machine

/-! ## RESTART -/

namespace Sys2Proof.Machine

/-! ### The quiet part (R120, R157) -/

theorem HoistState.busy_iff (st : HoistState) : st.busy = false ↔ st = .ready ∨ st = .lost ∨ st = .moving := by
  cases st <;> simp [HoistState.busy]

theorem GroupState.active_iff (st : GroupState) : st.active = false ↔ st = .empty ∨ st = .idle ∨ st = .faulted := by
  cases st <;> simp [GroupState.active]

theorem State.anyBusyHoist_false (s : State) :
    s.anyBusyHoist = false ↔ ∀ i, ∀ h ∈ s.record i, h.state = .ready ∨ h.state = .lost ∨ h.state = .moving := by
  simp only [State.anyBusyHoist, List.any_eq_false, List.mem_finRange, true_implies]
  refine forall_congr' fun i => ?_
  cases s.record i with
  | none => simp
  | some h => simp [← HoistState.busy_iff]

theorem State.anyActiveGroup_false (s : State) :
    s.anyActiveGroup = false ↔
      ∀ k, (s.group k).state = .empty ∨ (s.group k).state = .idle ∨ (s.group k).state = .faulted := by
  simp [State.anyActiveGroup, ← GroupState.active_iff]

/-- The part is quiet exactly while the condition of the fast pace does not hold (R120, R146, R157). -/
theorem State.quiet_iff (s : State) : s.Quiet ↔ s.fastCondition = false := by
  rw [State.fastCondition, Bool.or_eq_false_iff, State.anyActiveGroup_false, State.anyBusyHoist_false, State.Quiet]

/-! ### Faults that are posted one after another (R111) -/

/-- A fault to be posted, if there is one. -/
def Group.postFirst (g : Group) (p : Option PendingFault) : Group :=
  match p with
  | none => g
  | some p => g.post p.cause p.slot p.value

/-- Of two faults the first stays. -/
theorem Group.postFirst_postFirst (g : Group) (p q : Option PendingFault) :
    (g.postFirst p).postFirst q = g.postFirst (p.or q) := by
  cases p with
  | none => simp [Group.postFirst]
  | some p =>
    cases q with
    | none => simp [Group.postFirst]
    | some q =>
      simp only [Group.postFirst, Option.some_or]
      cases hp : g.pendingFault <;> simp [Group.post, hp]

theorem Group.postFirst_eq {g : Group} (hp : g.pendingFault = none) (p : Option PendingFault) :
    g.postFirst p = { g with pendingFault := p, attention := g.attention || p.isSome } := by
  cases p with
  | none => cases g; simp_all [Group.postFirst]
  | some p => simp [Group.postFirst, Group.post, hp]

theorem Group.postFirst_pending {g : Group} (hp : g.pendingFault ≠ none) (p : Option PendingFault) :
    g.postFirst p = g := by
  cases p with
  | none => rfl
  | some p =>
    simp only [Group.postFirst, Group.post]
    cases h : g.pendingFault with
    | none => exact absurd h hp
    | some f => rfl

@[simp] theorem Group.state_postFirst (g : Group) (p : Option PendingFault) : (g.postFirst p).state = g.state := by
  cases p with
  | none => rfl
  | some p => simp only [Group.postFirst, Group.post]; split <;> rfl

/-! ### The repost (R121) -/

/-- The fault that a record has for a group at the repost: its highest stop-class condition. -/
def State.repostOf (s : State) (k : GroupId) (i : Slot) : Option PendingFault :=
  (s.record i).bind fun h =>
    if h.group = some k then (h.current.top Cond.isStop).map fun c => ⟨c, i, h.causeValue c⟩ else none

/-- One slot's turn touches its group alone, with the slot's fault. -/
theorem State.repost_spec (s : State) (i : Slot) :
    s.TablesOnly (s.repost i) ∧ (s.repost i).slots = s.slots ∧
      ∀ k, (s.repost i).group k = (s.group k).postFirst (s.repostOf k i) := by
  unfold State.repost State.repostOf
  cases hr : s.record i with
  | none => exact ⟨.refl s, rfl, fun k => rfl⟩
  | some h =>
    dsimp only
    cases hg : h.group with
    | none => exact ⟨.refl s, rfl, fun k => by simp [hg, Group.postFirst]⟩
    | some j =>
      cases hc : h.current.top Cond.isStop with
      | none => exact ⟨.refl s, rfl, fun k => by simp [hc, Group.postFirst]⟩
      | some c =>
        dsimp only
        refine ⟨.modGroup .., rfl, fun k => ?_⟩
        rw [State.group_modGroup]
        by_cases hk : j = k
        · subst hk; simp [hg, hc, Group.postFirst]
        · simp [hg, hk, Group.postFirst]

/-- The repost over slots in order: each group has the fault of the first slot that has one for it. -/
theorem State.repost_foldl (s : State) (l : List Slot) :
    s.TablesOnly (l.foldl State.repost s) ∧ (l.foldl State.repost s).slots = s.slots ∧
      ∀ k, (l.foldl State.repost s).group k = (s.group k).postFirst (l.findSome? (s.repostOf k)) := by
  induction l using List.reverseRecOn with
  | nil => exact ⟨.refl s, rfl, fun k => rfl⟩
  | append_singleton l i ih =>
    obtain ⟨ht, hs, hg⟩ := ih
    rw [List.foldl_append, List.foldl_cons, List.foldl_nil]
    generalize l.foldl State.repost s = t at ht hs hg ⊢
    obtain ⟨ht', hs', hg'⟩ := t.repost_spec i
    refine ⟨ht.trans ht', hs'.trans hs, fun k => ?_⟩
    have hrep : t.repostOf k i = s.repostOf k i := by simp only [State.repostOf, State.record, State.slot, hs]
    rw [hg', hg, hrep, Group.postFirst_postFirst, List.findSome?_append]
    simp only [List.findSome?_cons, List.findSome?_nil]
    cases s.repostOf k i <;> rfl

/-! ### The blocks (R26, R52, R138, R161, R179) -/

theorem State.slot_withTables (s : State) (x : Safety) (p : Port) (i : Slot) :
    ({ s with safety := x, port := p } : State).slot i = s.slot i := rfl

theorem State.group_withTables (s : State) (x : Safety) (p : Port) (k : GroupId) :
    ({ s with safety := x, port := p } : State).group k = s.group k := rfl

/-- RESTART leaves no group active: each is empty or idle. -/
theorem Group.state_restart (g : Group) : g.restart.state = .empty ∨ g.restart.state = .idle := by
  unfold Group.restart
  dsimp only
  split <;> simp

theorem State.slot_restartBlocks (s : State) (i : Slot) : s.restartBlocks.slot i = (s.slot i).restart := by
  unfold State.restartBlocks
  rw [State.slot_withTables, State.slot_mapGroups, State.slot_mapSlots]

theorem State.group_restartBlocks (s : State) (k : GroupId) : s.restartBlocks.group k = (s.group k).restart := by
  unfold State.restartBlocks
  rw [State.group_withTables, State.group_mapGroups, State.group_mapSlots]

/-- The fields that RESTART's blocks leave or write beside the tables. -/
theorem State.restartBlocks_fields (s : State) :
    s.restartBlocks.nodeMap = s.nodeMap ∧ s.restartBlocks.link = s.link ∧
      s.restartBlocks.safety = { s.safety with estopSeen := false, estopCleared := false, lastJogEnd := none } ∧
      s.restartBlocks.port =
        { s.port with cursorBlock := .hoistStatus, cursorStart := 0, firstLook := false, walk := none } ∧
      s.restartBlocks.now = s.now ∧ s.restartBlocks.freeCount = s.freeCount ∧ s.restartBlocks.pending = s.pending ∧
      s.restartBlocks.eventsWaiting = s.eventsWaiting := by
  unfold State.restartBlocks State.mapGroups
  simp only [State.nodeMap_mapSlots, State.link_mapSlots, State.now_mapSlots, State.freeCount_mapSlots,
      State.pending_mapSlots, State.eventsWaiting_mapSlots, and_self]

/-- What RESTART leaves of the tables, before its answer. -/
theorem State.restart_spec (s : State) :
    s.restartBlocks.TablesOnly s.restartBlocks.repostAll ∧
      (∀ i, s.restartBlocks.repostAll.slot i = (s.slot i).restart) ∧
      ∀ k, s.restartBlocks.repostAll.group k = (s.group k).restart.postFirst
        ((List.finRange 32).findSome? (s.repostOf k)) := by
  obtain ⟨ht, hs, hg⟩ := s.restartBlocks.repost_foldl (List.finRange 32)
  unfold State.repostAll
  generalize (List.finRange 32).foldl State.repost s.restartBlocks = t at ht hs hg ⊢
  refine ⟨ht, fun i => ?_, fun k => ?_⟩
  · rw [State.slot, hs, ← State.slot_restartBlocks]
    rfl
  · have hrep : s.restartBlocks.repostOf k = s.repostOf k := by
      funext i
      unfold State.repostOf State.record
      rw [State.slot_restartBlocks]
      unfold SlotEntry.restart
      rw [Option.bind_map]
      rfl
    rw [hg, hrep, State.group_restartBlocks]

/-- The part is quiet after RESTART. -/
theorem State.restart_quiet {s : State} (hq : s.Quiet) : s.restartBlocks.repostAll.Quiet := by
  obtain ⟨-, hs, hg⟩ := s.restart_spec
  refine ⟨fun k => ?_, fun i h hh => ?_⟩
  · rw [hg, Group.state_postFirst]
    rcases (s.group k).state_restart with e | e <;> simp [e]
  · have hr : s.restartBlocks.repostAll.record i = (s.slot i).restart.record := congrArg SlotEntry.record (hs i)
    rw [hr] at hh
    obtain ⟨r, hr', rfl⟩ := Option.map_eq_some_iff.1 hh
    exact hq.2 i r hr'

/-- An answer to a part that is quiet leaves the pace. -/
theorem State.repace_quiet {s : State} (hq : s.Quiet) : s.repace = s :=
  s.repace_of_paced fun _ => (State.quiet_iff s).1 hq

/-- Settles O41: the blocks are written, then each group posts its first fault in slot order. -/
theorem restartClearsHistory : Obligations.RestartClearsHistory := by
  intro s hp
  refine ⟨fun hq => complete_console_refused hp ?_, fun hq => ?_⟩
  · have : s.fastCondition = true := by
      rw [State.quiet_iff] at hq
      simpa using hq
    exact if_pos this
  · obtain ⟨ht, hs, hg⟩ := s.dropWalk.restart_spec
    have hq' : s.dropWalk.restartBlocks.repostAll.Quiet := State.restart_quiet (s := s.dropWalk) hq
    have hf : ¬ s.dropWalk.fastCondition = true := by
      rw [Bool.not_eq_true]
      exact (State.quiet_iff s.dropWalk).1 hq
    have run : exec .restart s = .next (respond (s.dropWalk.restartBlocks.repostAll, .plain .ok)) := by
      show complete (s.console .restart [] State.takeRestart) = _
      rw [console_command hp, State.takeRestart, if_neg hf]
      generalize s.dropWalk.restartBlocks.repostAll = t at hq' ⊢
      rw [complete, State.repace_quiet (s := respond (t, .plain .ok)) hq']
    generalize s.dropWalk.restartBlocks.repostAll = t at ht hs hg run
    obtain ⟨b1, b2, b3, b4, b5, b6, b7, b8⟩ := s.dropWalk.restartBlocks_fields
    refine ⟨respond (t, .plain .ok), run, hs, fun k => ?_, ht.safety.trans b3, ?_, ht.nodeMap.trans b1,
      ht.link.trans b2, ht.eventsWaiting.trans b8, ht.pending.trans b7, ht.now.trans b5, ht.freeCount.trans b6⟩
    · have hpost : (fun i => (s.record i).bind fun h =>
          if h.group = some k then
            (Cond.all.find? fun c => decide (c ∈ h.current ∧ c.condClass = .stop)).map fun c =>
              (⟨c, i, h.causeValue c⟩ : PendingFault)
          else none) = s.repostOf k := by
        funext i
        have hstop : ∀ c : Cond, (c.condClass == .stop) = decide (c.condClass = .stop) := fun c => by cases c <;> rfl
        unfold State.repostOf CondSet.top Cond.isStop
        simp [hstop]
      dsimp only
      rw [hpost]
      refine (hg k).trans ?_
      show (s.group k).restart.postFirst ((List.finRange 32).findSome? (s.repostOf k)) = _
      generalize (List.finRange 32).findSome? (s.repostOf k) = posted
      rw [Group.postFirst_eq rfl]
      simp only [Group.restart, Group.stopTimers, List.isEmpty_iff, Bool.false_or]
    · unfold respond State.modPort
      dsimp only
      rw [ht.port, b4]
      rfl

end Sys2Proof.Machine

/-! ## LINKCFG -/

namespace Sys2Proof.Machine

/-- A slot after a change of the threshold (R158). -/
def SlotEntry.rethreshold (old new : Nat) (e : SlotEntry) : SlotEntry :=
  match e.record with
  | none => e
  | some h =>
    if h.state = .ready ∧ new < old ∧ new < h.missCount then e.lost { h with missCount := new }
    else if h.state = .lost ∧ new ≠ old then { e with record := some { h with missCount := new } }
    else e

/-- The fault that a slot has for a group at a change of the threshold (R109, R158). -/
def State.thresholdFault (s : State) (old new : Nat) (k : GroupId) (i : Slot) : Option PendingFault :=
  (s.record i).bind fun h =>
    if h.group = some k ∧ h.state = .ready ∧ new < old ∧ new < h.missCount then some ⟨.lost, i, some (new : Int)⟩ else none

/-- A fault posted in an idle group, and in no other (R108, R111). -/
def Group.postIdle (g : Group) (p : Option PendingFault) : Group := if g.state = .idle then g.postFirst p else g

theorem Group.state_postIdle (g : Group) (p : Option PendingFault) : (g.postIdle p).state = g.state := by
  unfold Group.postIdle; split <;> simp

theorem Group.postIdle_none (g : Group) : g.postIdle none = g := by
  unfold Group.postIdle; split <;> rfl

theorem Group.postIdle_postIdle (g : Group) (p q : Option PendingFault) :
    (g.postIdle p).postIdle q = g.postIdle (p.or q) := by
  unfold Group.postIdle
  by_cases h : g.state = .idle
  · simp [h, Group.postFirst_postFirst]
  · simp [h]

/-- No group is active: each stands empty, idle or faulted. -/
def State.GroupsRest (s : State) : Prop :=
  ∀ k, (s.group k).state = .empty ∨ (s.group k).state = .idle ∨ (s.group k).state = .faulted

/-- A loss event of a group at rest posts its fault in an idle group (R108, R109). -/
theorem State.lossEvent_rest {s : State} {k : GroupId}
    (hk : (s.group k).state = .empty ∨ (s.group k).state = .idle ∨ (s.group k).state = .faulted) (i : Slot)
    (value : Option Int) : s.lossEvent k i value = s.modGroup k fun g => g.postIdle (some ⟨.lost, i, value⟩) := by
  have hid : s.modGroup k (fun g => g) = s := by
    simp [State.modGroup]
  rw [State.modGroup_eq] at hid ⊢
  unfold State.lossEvent State.conditionEvent Group.postIdle
  rcases hk with e | e | e <;> simp only [e, reduceCtorEq, if_false, if_true, hid]
  rfl

/-- A loss reaches the group of the lost hoist alone, in a part whose groups rest. -/
theorem State.groupLoss_rest {s : State} (hq : s.GroupsRest) (k? : Option GroupId) (i : Slot) (value : Option Int) :
    s.TablesOnly (s.groupLoss k? i value) ∧ (s.groupLoss k? i value).slot = s.slot ∧
      ∀ k, (s.groupLoss k? i value).group k =
        if k? = some k then (s.group k).postIdle (some ⟨.lost, i, value⟩) else s.group k := by
  cases k? with
  | none => exact ⟨.refl s, rfl, fun k => rfl⟩
  | some k' =>
    rw [State.groupLoss, State.lossEvent_rest (hq k')]
    refine ⟨⟨rfl, rfl, rfl, rfl, rfl, rfl, rfl, rfl⟩, rfl, fun k => ?_⟩
    rw [State.group_modGroup]
    by_cases hk : k' = k
    · subst hk; simp
    · simp [hk]

/-- One slot's turn at a lowered threshold, in a part whose groups rest. -/
theorem State.lowerCount_spec {s : State} (hq : s.GroupsRest) {old new : Nat} (hlt : new < old) (i : Slot) :
    s.TablesOnly (s.lowerCount new i) ∧
      (∀ j, (s.lowerCount new i).slot j = if i = j then (s.slot j).rethreshold old new else s.slot j) ∧
      ∀ k, (s.lowerCount new i).group k = (s.group k).postIdle (s.thresholdFault old new k i) := by
  unfold State.lowerCount State.thresholdFault
  cases hr : s.record i with
  | none =>
    have : (s.slot i).record = none := hr
    dsimp only
    refine ⟨.refl s, fun j => ?_, fun k => by simp [Group.postIdle_none]⟩
    split
    · next e => subst e; simp [SlotEntry.rethreshold, this]
    · rfl
  | some h =>
    have hrec : (s.slot i).record = some h := hr
    dsimp only [Option.bind_some]
    by_cases h1 : h.state = .ready ∧ new < h.missCount
    · have hl : (s.modRecord i fun r => { r with missCount := new }).lose i { h with missCount := new } =
          (s.setSlot i ((s.slot i).lost { h with missCount := new })).groupLoss h.group i (some new) := by
        rw [State.modRecord_eq_setSlot hr, State.lose_eq (State.record_setSlot_self ..), State.setSlot_setSlot,
          State.slot_setSlot_self]
        exact if_neg fun x => HoistState.noConfusion (h1.1.symm.trans x)
      have hent : (s.slot i).rethreshold old new = (s.slot i).lost { h with missCount := new } := by
        simp only [SlotEntry.rethreshold, hrec]
        rw [if_pos ⟨h1.1, hlt, h1.2⟩]
      rw [if_pos h1, hl]
      have hslot : ∀ j, (s.setSlot i ((s.slot i).lost { h with missCount := new })).slot j =
          if i = j then (s.slot j).rethreshold old new else s.slot j := fun j => by
        rw [State.slot_setSlot]
        split
        · next e => subst e; exact hent.symm
        · rfl
      obtain ⟨ht, hs, hgr⟩ := State.groupLoss_rest (s := s.setSlot i ((s.slot i).lost { h with missCount := new })) hq
        h.group i (some new)
      have hset : s.TablesOnly (s.setSlot i ((s.slot i).lost { h with missCount := new })) :=
        ⟨rfl, rfl, rfl, rfl, rfl, rfl, rfl, rfl⟩
      refine ⟨hset.trans ht, fun j => (congrFun hs j).trans (hslot j), fun k => ?_⟩
      rw [hgr]
      by_cases hk : h.group = some k
      · rw [if_pos hk, if_pos ⟨hk, h1.1, hlt, h1.2⟩]; rfl
      · rw [if_neg hk, if_neg fun x => hk x.1, Group.postIdle_none]; rfl
    · have h1' : ¬ (h.state = .ready ∧ new < old ∧ new < h.missCount) := fun x => h1 ⟨x.1, x.2.2⟩
      have h1'' : ∀ k, ¬ (h.group = some k ∧ h.state = .ready ∧ new < old ∧ new < h.missCount) := fun k x => h1' x.2
      simp only [if_neg h1, if_neg (h1'' _), Group.postIdle_none]
      by_cases h2 : h.state = .lost
      · rw [if_pos h2, State.modRecord_eq_setSlot hr]
        refine ⟨⟨rfl, rfl, rfl, rfl, rfl, rfl, rfl, rfl⟩, fun j => ?_, fun k => rfl⟩
        rw [State.slot_setSlot]
        split
        · next e =>
          subst e
          simp only [SlotEntry.rethreshold, hrec]
          rw [if_neg h1', if_pos ⟨h2, Nat.ne_of_lt hlt⟩]
        · rfl
      · rw [if_neg h2]
        refine ⟨.refl s, fun j => ?_, fun k => rfl⟩
        split
        · next e =>
          subst e
          simp only [SlotEntry.rethreshold, hrec]
          rw [if_neg h1', if_neg fun x => h2 x.1]
        · rfl

/-- One slot's turn at a raised threshold. -/
theorem State.raiseCount_spec (s : State) {old new : Nat} (hlt : old < new) (i : Slot) :
    s.TablesOnly (s.raiseCount new i) ∧
      (∀ j, (s.raiseCount new i).slot j = if i = j then (s.slot j).rethreshold old new else s.slot j) ∧
      ∀ k, (s.raiseCount new i).group k = (s.group k).postIdle (s.thresholdFault old new k i) := by
  have hn : ∀ k, s.thresholdFault old new k i = none := fun k => by
    unfold State.thresholdFault
    cases s.record i with
    | none => rfl
    | some h => exact if_neg fun x => absurd x.2.2.1 (by omega)
  simp only [hn, Group.postIdle_none]
  unfold State.raiseCount
  cases hr : s.record i with
  | none =>
    have hrec : (s.slot i).record = none := hr
    have : s.hoistState i ≠ some .lost := by simp [State.hoistState, hr]
    rw [if_neg this]
    refine ⟨.refl s, fun j => ?_, fun k => rfl⟩
    split
    · next e => subst e; simp [SlotEntry.rethreshold, hrec]
    · rfl
  | some h =>
    have hrec : (s.slot i).record = some h := hr
    have h1 : ¬ (h.state = .ready ∧ new < old ∧ new < h.missCount) := fun x => absurd x.2.1 (by omega)
    have hs : s.hoistState i = some h.state := by simp [State.hoistState, hr]
    simp only [hs, Option.some.injEq]
    by_cases h2 : h.state = .lost
    · rw [if_pos h2, State.modRecord_eq_setSlot hr]
      refine ⟨⟨rfl, rfl, rfl, rfl, rfl, rfl, rfl, rfl⟩, fun j => ?_, fun k => rfl⟩
      rw [State.slot_setSlot]
      split
      · next e =>
        subst e
        simp only [SlotEntry.rethreshold, hrec]
        rw [if_neg h1, if_pos ⟨h2, (Nat.ne_of_lt hlt).symm⟩]
      · rfl
    · rw [if_neg h2]
      refine ⟨.refl s, fun j => ?_, fun k => rfl⟩
      split
      · next e =>
        subst e
        simp only [SlotEntry.rethreshold, hrec]
        rw [if_neg h1, if_neg fun x => h2 x.1]
      · rfl

/-- The walk over slots, each once, whichever of the two turns they take. -/
theorem State.threshold_foldl {f : State → Slot → State} {old new : Nat} {s : State} (hq : s.GroupsRest)
    (hf : ∀ t : State, t.GroupsRest → ∀ i, t.TablesOnly (f t i) ∧
      (∀ j, (f t i).slot j = if i = j then (t.slot j).rethreshold old new else t.slot j) ∧
      ∀ k, (f t i).group k = (t.group k).postIdle (t.thresholdFault old new k i))
    {l : List Slot} (hl : l.Nodup) :
    s.TablesOnly (l.foldl f s) ∧
      (∀ j, (l.foldl f s).slot j = if j ∈ l then (s.slot j).rethreshold old new else s.slot j) ∧
      ∀ k, (l.foldl f s).group k = (s.group k).postIdle (l.findSome? (s.thresholdFault old new k)) := by
  induction l using List.reverseRecOn with
  | nil => exact ⟨.refl s, fun j => by simp, fun k => (Group.postIdle_none _).symm⟩
  | append_singleton l i ih =>
    obtain ⟨hl1, -, hl2⟩ := List.nodup_append.1 hl
    have hi : i ∉ l := fun h => hl2 i h i (by simp) rfl
    obtain ⟨ht, hs, hg⟩ := ih hl1
    rw [List.foldl_append, List.foldl_cons, List.foldl_nil]
    generalize l.foldl f s = t at ht hs hg ⊢
    have hqt : t.GroupsRest := fun k => by rw [hg, Group.state_postIdle]; exact hq k
    obtain ⟨ht', hs', hg'⟩ := hf t hqt i
    refine ⟨ht.trans ht', fun j => ?_, fun k => ?_⟩
    · rw [hs', hs]
      by_cases hij : i = j
      · subst hij; simp [hi]
      · have : j ≠ i := fun e => hij e.symm
        simp [hij, this]
    · have hsi : t.slot i = s.slot i := by rw [hs, if_neg hi]
      have hrep : t.thresholdFault old new k i = s.thresholdFault old new k i := by
        simp only [State.thresholdFault, State.record, hsi]
      rw [hg', hg, hrep, Group.postIdle_postIdle, List.findSome?_append]
      simp only [List.findSome?_cons, List.findSome?_nil]
      cases s.thresholdFault old new k i <;> rfl

/-- A new threshold in a part whose groups rest, slot by slot and group by group (R158). -/
theorem State.applyThreshold_spec {s : State} (hq : s.GroupsRest) (old new : Nat) :
    s.TablesOnly (s.applyThreshold old new) ∧
      (∀ j, (s.applyThreshold old new).slot j = (s.slot j).rethreshold old new) ∧
      ∀ k, (s.applyThreshold old new).group k =
        (s.group k).postIdle ((List.finRange 32).findSome? (s.thresholdFault old new k)) := by
  unfold State.applyThreshold
  by_cases hlt : new < old
  · obtain ⟨ht, hs, hg⟩ := State.threshold_foldl hq (fun t h i => State.lowerCount_spec h hlt i) (List.nodup_finRange 32)
    rw [if_pos hlt]
    exact ⟨ht, fun j => by rw [hs, if_pos (List.mem_finRange j)], hg⟩
  · rw [if_neg hlt]
    by_cases hgt : old < new
    · obtain ⟨ht, hs, hg⟩ := State.threshold_foldl hq (fun t _ i => t.raiseCount_spec hgt i) (List.nodup_finRange 32)
      rw [if_pos hgt]
      exact ⟨ht, fun j => by rw [hs, if_pos (List.mem_finRange j)], hg⟩
    · have he : new = old := by omega
      subst he
      rw [if_neg hgt]
      refine ⟨.refl s, fun j => ?_, fun k => ?_⟩
      · unfold SlotEntry.rethreshold
        cases (s.slot j).record <;> simp
      · have : (List.finRange 32).findSome? (s.thresholdFault new new k) = none := by
          rw [List.findSome?_eq_none_iff]
          intro i _
          unfold State.thresholdFault
          cases s.record i <;> simp
        rw [this, Group.postIdle_none]

/-- A change of the threshold moves no record. -/
theorem SlotEntry.state_rethreshold {old new : Nat} {e : SlotEntry} {r : Hoist}
    (hr : (e.rethreshold old new).record = some r) :
    ∃ h, e.record = some h ∧ (r.state = h.state ∨ r.state = .lost) := by
  unfold SlotEntry.rethreshold at hr
  cases he : e.record with
  | none => rw [he] at hr; exact absurd (he.symm.trans hr) (by simp)
  | some h =>
    rw [he] at hr
    refine ⟨h, rfl, ?_⟩
    dsimp only at hr
    split at hr
    · exact .inr (by cases hr; rfl)
    · split at hr
      · exact .inl (by cases hr; rfl)
      · exact .inl (by cases he.symm.trans hr; rfl)

/-- The part is quiet after LINKCFG, too. -/
theorem State.applyThreshold_quiet {s : State} (hq : s.Quiet) (old new : Nat) : (s.applyThreshold old new).Quiet := by
  obtain ⟨-, hs, hg⟩ := State.applyThreshold_spec (s := s) hq.1 old new
  refine ⟨fun k => ?_, fun i r hr => ?_⟩
  · rw [hg, Group.state_postIdle]
    exact hq.1 k
  · have hr' : ((s.slot i).rethreshold old new).record = some r := (congrArg SlotEntry.record (hs i)).symm.trans hr
    obtain ⟨h, hh, e | e⟩ := SlotEntry.state_rethreshold hr'
    · rw [e]; exact hq.2 i h hh
    · exact .inr (.inl e)

/-- The first slot, in ascending order, that has something. -/
theorem findSome?_finRange_first {α : Type} {f : Slot → Option α} {i : Slot} {a : α} (hi : f i = some a)
    (hj : ∀ j, j < i → f j = none) : (List.finRange 32).findSome? f = some a := by
  rw [List.findSome?_eq_some_iff]
  obtain ⟨before, later, hl⟩ := List.append_of_mem (List.mem_finRange i)
  refine ⟨before, i, later, hl, hi, fun j hjb => hj j ?_⟩
  have hp := List.pairwise_lt_finRange 32
  rw [hl, List.pairwise_append] at hp
  exact hp.2.2 j hjb i (by simp)

/-- LINKCFG as it runs in a quiet part. -/
theorem linkcfg_runs {s : State} (hp : s.port.phase = .command) (hq : s.Quiet) (timeout : BitVec 16) (threshold : Byte)
    (idle : BitVec 16) :
    let wait := intoRange 50 1000 timeout.toNat - intoRange 50 1000 timeout.toNat % 10
    let new := intoRange 1 7 threshold.toNat
    let pause := intoRange 50 500 idle.toNat - intoRange 50 500 idle.toNat % 10
    let l := { s.link with responseTimeout := wait, lossThreshold := new, idleInterval := pause }
    exec (.linkcfg timeout threshold idle) s = .next (respond
      (({ s.dropWalk with link := l } : State).applyThreshold s.link.lossThreshold new, .plain
        (if wait = timeout.toNat ∧ new = threshold.toNat ∧ pause = idle.toNat then .ok else .clamped))) := by
  intro wait new pause l
  have hf : ¬ s.dropWalk.fastCondition = true := by
    rw [Bool.not_eq_true]
    exact (State.quiet_iff s.dropWalk).1 hq
  show complete (s.console .linkcfg _ _) = _
  rw [console_command hp, State.configureLink, if_neg hf]
  simp only [clampTens_eq (show 50 ≤ 1000 by omega), clampTens_eq (show 50 ≤ 500 by omega),
    clampTo_eq (show 1 ≤ 7 by omega)]
  have hstat : statusOf (wait != timeout.toNat || new != threshold.toNat || pause != idle.toNat) =
      if wait = timeout.toNat ∧ new = threshold.toNat ∧ pause = idle.toNat then Status.ok else .clamped := by
    simp only [statusOf, Bool.or_eq_true, bne_iff_ne]
    split <;> split <;> first | rfl | (exfalso; tauto)
  have hq' : (({ s.dropWalk with link := l } : State).applyThreshold s.link.lossThreshold new).Quiet :=
    State.applyThreshold_quiet (s := { s.dropWalk with link := l }) hq _ _
  show complete (respond (({ s.dropWalk with link := l } : State).applyThreshold s.link.lossThreshold new,
    .plain (statusOf (wait != timeout.toNat || new != threshold.toNat || pause != idle.toNat)))) = _
  rw [hstat]
  generalize ({ s.dropWalk with link := l } : State).applyThreshold s.link.lossThreshold new = t at hq' ⊢
  rw [complete, State.repace_quiet (s := respond (t, _)) hq']

/-- The fault of a slot for a group, and none. -/
theorem State.thresholdFault_some {s : State} {old new : Nat} {k : GroupId} {i : Slot} {h : Hoist}
    (hr : s.record i = some h) (hl : h.state = .ready ∧ new < old ∧ new < h.missCount) (hg : h.group = some k) :
    s.thresholdFault old new k i = some ⟨.lost, i, some (new : Int)⟩ := by
  rw [State.thresholdFault, hr, Option.bind_some, if_pos ⟨hg, hl⟩]

theorem State.thresholdFault_none {s : State} {old new : Nat} {k : GroupId} {i : Slot}
    (hn : ∀ h ∈ s.record i, (h.state = .ready ∧ new < old ∧ new < h.missCount) → h.group ≠ some k) :
    s.thresholdFault old new k i = none := by
  unfold State.thresholdFault
  cases hr : s.record i with
  | none => rfl
  | some h => exact if_neg fun x => hn h hr x.2 x.1

/-- Settles O50: the settings are written, then `State.applyThreshold` goes over the slots. -/
theorem linkcfgWritesSettings : Obligations.LinkcfgWritesSettings := by
  intro s timeout threshold idle hp run wait new pause old lost
  refine ⟨fun hq => complete_console_refused hp ?_, fun hq => ?_⟩
  · have : s.fastCondition = true := by
      rw [State.quiet_iff] at hq
      simpa using hq
    exact if_pos this
  · have hrun := linkcfg_runs hp hq timeout threshold idle
    obtain ⟨ht, hs, hg⟩ := State.applyThreshold_spec
      (s := { s.dropWalk with link := { s.link with responseTimeout := wait, lossThreshold := new, idleInterval := pause } })
      hq.1 old new
    dsimp only at hrun
    generalize State.applyThreshold _ _ _ = t at ht hs hg hrun
    replace hs : ∀ j, t.slot j = (s.slot j).rethreshold old new := hs
    replace hg : ∀ k, t.group k =
      (s.group k).postIdle ((List.finRange 32).findSome? (s.thresholdFault old new k)) := hg
    refine ⟨_, hrun, ?_, fun i hi => (hs i).trans ?_, fun i h hi => ⟨fun hl => (hs i).trans ?_,
      fun h1 h2 => (hs i).trans ?_, fun h1 h2 => (hs i).trans ?_⟩, fun k => ⟨fun hn => (hg k).trans ?_,
      fun i h hi hl hk hfirst => ⟨fun h1 h2 => (hg k).trans ?_, fun h1 => (hg k).trans ?_⟩⟩⟩
    · have := ht.eq
      rw [this]
      rfl
    · rw [SlotEntry.rethreshold, show (s.slot i).record = none from hi]
    · simp only [SlotEntry.rethreshold, show (s.slot i).record = some h from hi]
      rw [if_pos hl]
      rfl
    · simp only [SlotEntry.rethreshold, show (s.slot i).record = some h from hi]
      rw [if_neg fun x => HoistState.noConfusion (x.1.symm.trans h1), if_pos ⟨h1, h2⟩]
    · simp only [SlotEntry.rethreshold, show (s.slot i).record = some h from hi]
      rw [if_neg h1, if_neg h2]
    · rw [List.findSome?_eq_none_iff.2 fun i _ => State.thresholdFault_none (hn i), Group.postIdle_none]
    · rw [findSome?_finRange_first (State.thresholdFault_some hi hl hk)
        fun j hj => State.thresholdFault_none (hfirst j hj)]
      rw [Group.postIdle, if_pos h1, Group.postFirst_eq h2]
      simp only [Option.isSome_some, Bool.or_true]
    · rw [findSome?_finRange_first (State.thresholdFault_some hi hl hk)
        fun j hj => State.thresholdFault_none (hfirst j hj)]
      unfold Group.postIdle
      split
      · next e => exact Group.postFirst_pending (h1.resolve_left fun x => x e) _
      · rfl

end Sys2Proof.Machine

/-! ## Properties that every operation keeps

A step is one command of the queue or one tick of the clock. A property that does not read the port or the queue and that
each named operation keeps is kept by every step. -/

namespace Sys2Proof.Machine

/-- The property is kept by the owners' work on the console's commands. -/
structure KeptByOwners (P : State → Prop) : Prop where
  takeLook : ∀ (s : State) (kind block index : Byte), P s → P (s.takeLook kind block index).1
  clearAttention : ∀ (s : State) (kind index : Byte), P s → P (s.clearAttention kind index).1
  admitSlot : ∀ (s : State) (slot address : Byte) (lower upper trim : BitVec 16), P s →
    P (s.admitSlot slot address lower upper trim).1
  amend : ∀ (s : State) (slot : Byte) (lower upper trim : BitVec 16) (overload underload shift : Byte)
    (jogDemand : BitVec 16), P s → P (s.amend slot lower upper trim overload underload shift jogDemand).1
  retire : ∀ (s : State) (slot : Byte), P s → P (s.retire slot).1
  assign : ∀ (s : State) (slot group : Byte), P s → P (s.assign slot group).1
  clearFlags : ∀ (s : State) (slot : Byte), P s → P (s.clearFlags slot).1
  setGroup : ∀ (s : State) (group level gain landing mask stepPeriod settle : Byte) (holdMs stopMs landMs : BitVec 16),
    P s → P (s.setGroup group level gain landing mask stepPeriod settle holdMs stopMs landMs).1
  queueCue : ∀ (s : State) (group : Byte) (target cruise accel : BitVec 16) (source after : Byte), P s →
    P (s.queueCue group target cruise accel source after).1
  flush : ∀ (s : State) (group : Byte), P s → P (s.flush group).1
  arm : ∀ (s : State) (group : Byte), P s → P (s.arm group).1
  startMove : ∀ (s : State) (k : GroupId), P s → P (s.startMove k)
  holdJog : ∀ s : State, P s → P s.holdJog.1
  holdGroup : ∀ (s : State) (k : GroupId), P s → P (s.holdGroup k).1
  haltGroup : ∀ (s : State) (k : GroupId), P s → P (s.haltGroup k)
  stageSpeed : ∀ (s : State) (group : Byte) (cruise : BitVec 16), P s → P (s.stageSpeed group cruise).1
  stageTarget : ∀ (s : State) (group : Byte) (target : BitVec 16), P s → P (s.stageTarget group target).1
  ackFault : ∀ (s : State) (group : Byte), P s → P (s.ackFault group).1
  takeJog : ∀ (s : State) (slot direction : Byte) (distance : BitVec 16), P s → P (s.takeJog slot direction distance).1
  endJog : ∀ (s : State) (cause : JogEndCause), P s → P (s.endJog cause)
  configureLink : ∀ (s : State) (timeout : BitVec 16) (threshold : Byte) (idle : BitVec 16), P s →
    P (s.configureLink timeout threshold idle).1
  takePermit : ∀ s : State, P s → P s.takePermit.1
  takeRestart : ∀ s : State, P s → P s.takeRestart.1

/-- The property is kept by the events of the lines, the link and the clock. -/
structure KeptByEvents (P : State → Prop) : Prop where
  pending : ∀ (s : State) (l : List Instr), P s → P { s with pending := l }
  repace : ∀ s : State, P s → P s.repace
  endJog : ∀ (s : State) (cause : JogEndCause), P s → P (s.endJog cause)
  takeEstopAssertion : ∀ s : State, P s → P s.takeEstopAssertion
  deliverWaiting : ∀ s : State, P s → P s.deliverWaiting
  deliverEvents : ∀ s : State, P s → P s.deliverEvents
  releaseEstop : ∀ s : State, s.safety.estopWaiting = false → P s → P s.releaseEstop
  riseCue : ∀ (s : State) (line : CueLine), P s → P (s.riseCue line)
  fallCue : ∀ (s : State) (line : CueLine), P s → P (s.fallCue line)
  takeStepExpiry : ∀ (s : State) (k : GroupId), P s → ∀ t ∈ s.takeStepExpiry k, P t
  takeHoldExpiry : ∀ (s : State) (k : GroupId), P s → P (s.takeHoldExpiry k)
  takeLandingExpiry : ∀ (s : State) (k : GroupId), P s → P (s.takeLandingExpiry k)
  takeStopExpiry : ∀ (s : State) (k : GroupId), P s → P (s.takeStopExpiry k)
  takeResponseExpiry : ∀ s : State, P s → P s.takeResponseExpiry
  takeRoundStart : ∀ s : State, P s → P s.takeRoundStart
  pollNext : ∀ s : State, s.eventsWaiting = none → P s → P s.pollNext
  takeEndOfPoll : ∀ s : State, P s → P s.takeEndOfPoll
  takeHaltAll : ∀ s : State, P s → P s.takeHaltAll
  takeFrame : ∀ (s : State) (bytes : List Byte) (rest : Nat), P s → P (s.takeFrame bytes rest)
  takeFirstStartBit : ∀ (s : State) (elapsed : Nat), P s → P (s.takeFirstStartBit elapsed)
  count : ∀ s : State, P s → P s.count
  afterReset : ∀ (estopLow cue0High cue1High csLow : Bool) (now freeCount : Nat) (l : List Instr),
    P { State.afterReset estopLow cue0High cue1High csLow with now := now, freeCount := freeCount, pending := l }

/-- The property is kept by each operation that a step is made of; the port does not matter to it. -/
structure Kept (P : State → Prop) : Prop extends KeptByOwners P, KeptByEvents P where
  port : ∀ (s : State) (p : Port), P s → P { s with port := p }

namespace KeptByOwners

variable {P : State → Prop} (hk : KeptByOwners P)
include hk

theorem go {s : State} (h : P s) (group : Byte) : P (s.go group).1 := by
  unfold State.go
  split
  · exact h
  · split
    · exact hk.startMove s _ h
    · exact h

theorem takeHold {s : State} (h : P s) (group : Byte) : P (s.takeHold group).1 := by
  unfold State.takeHold
  split
  · exact hk.holdJog s h
  · split
    · exact hk.holdGroup s _ h
    · exact h

theorem takeHalt {s : State} (h : P s) (group : Byte) : P (s.takeHalt group).1 := by
  unfold State.takeHalt
  split
  · exact hk.endJog s .halt h
  · split
    · exact hk.haltGroup s _ h
    · exact h

/-- The owner's work on a command: with as many bytes as the command takes its owner works, with others nothing does. -/
theorem ownerTakes {s : State} (h : P s) (code : ConsoleCode) (args : List Byte) : P (s.ownerTakes code args).1 := by
  cases code with
  | look =>
    match args with
    | [_, _, _] => exact hk.takeLook s _ _ _ h
    | [] | [_] | [_, _] | _ :: _ :: _ :: _ :: _ => exact h
  | summary =>
    match args with
    | [] => exact h
    | _ :: _ => exact h
  | clrattn =>
    match args with
    | [_, _] => exact hk.clearAttention s _ _ h
    | [] | [_] | _ :: _ :: _ :: _ => exact h
  | admitHoist =>
    match args with
    | [_, _, _, _, _, _, _, _] => exact hk.admitSlot s _ _ _ _ _ h
    | [] | [_] | [_, _] | [_, _, _] | [_, _, _, _] | [_, _, _, _, _] | [_, _, _, _, _, _] | [_, _, _, _, _, _, _]
      | _ :: _ :: _ :: _ :: _ :: _ :: _ :: _ :: _ :: _ => exact h
  | amend =>
    match args with
    | [_, _, _, _, _, _, _, _, _, _, _, _] => exact hk.amend s _ _ _ _ _ _ _ _ h
    | [] | [_] | [_, _] | [_, _, _] | [_, _, _, _] | [_, _, _, _, _] | [_, _, _, _, _, _] | [_, _, _, _, _, _, _]
      | [_, _, _, _, _, _, _, _] | [_, _, _, _, _, _, _, _, _] | [_, _, _, _, _, _, _, _, _, _]
      | [_, _, _, _, _, _, _, _, _, _, _]
      | _ :: _ :: _ :: _ :: _ :: _ :: _ :: _ :: _ :: _ :: _ :: _ :: _ :: _ => exact h
  | retire =>
    match args with
    | [_] => exact hk.retire s _ h
    | [] | _ :: _ :: _ => exact h
  | assign =>
    match args with
    | [_, _] => exact hk.assign s _ _ h
    | [] | [_] | _ :: _ :: _ :: _ => exact h
  | clrflags =>
    match args with
    | [_] => exact hk.clearFlags s _ h
    | [] | _ :: _ :: _ => exact h
  | setgroup =>
    match args with
    | [_, _, _, _, _, _, _, _, _, _, _, _, _] => exact hk.setGroup s _ _ _ _ _ _ _ _ _ _ h
    | [] | [_] | [_, _] | [_, _, _] | [_, _, _, _] | [_, _, _, _, _] | [_, _, _, _, _, _] | [_, _, _, _, _, _, _]
      | [_, _, _, _, _, _, _, _] | [_, _, _, _, _, _, _, _, _] | [_, _, _, _, _, _, _, _, _, _]
      | [_, _, _, _, _, _, _, _, _, _, _] | [_, _, _, _, _, _, _, _, _, _, _, _]
      | _ :: _ :: _ :: _ :: _ :: _ :: _ :: _ :: _ :: _ :: _ :: _ :: _ :: _ :: _ => exact h
  | queue =>
    match args with
    | [_, _, _, _, _, _, _, _, _] => exact hk.queueCue s _ _ _ _ _ _ h
    | [] | [_] | [_, _] | [_, _, _] | [_, _, _, _] | [_, _, _, _, _] | [_, _, _, _, _, _] | [_, _, _, _, _, _, _]
      | [_, _, _, _, _, _, _, _] | _ :: _ :: _ :: _ :: _ :: _ :: _ :: _ :: _ :: _ :: _ => exact h
  | flush =>
    match args with
    | [_] => exact hk.flush s _ h
    | [] | _ :: _ :: _ => exact h
  | arm =>
    match args with
    | [_] => exact hk.arm s _ h
    | [] | _ :: _ :: _ => exact h
  | go =>
    match args with
    | [_] => exact hk.go h _
    | [] | _ :: _ :: _ => exact h
  | hold =>
    match args with
    | [_] => exact hk.takeHold h _
    | [] | _ :: _ :: _ => exact h
  | halt =>
    match args with
    | [_] => exact hk.takeHalt h _
    | [] | _ :: _ :: _ => exact h
  | stagespd =>
    match args with
    | [_, _, _] => exact hk.stageSpeed s _ _ h
    | [] | [_] | [_, _] | _ :: _ :: _ :: _ :: _ => exact h
  | stagetgt =>
    match args with
    | [_, _, _] => exact hk.stageTarget s _ _ h
    | [] | [_] | [_, _] | _ :: _ :: _ :: _ :: _ => exact h
  | ackfault =>
    match args with
    | [_] => exact hk.ackFault s _ h
    | [] | _ :: _ :: _ => exact h
  | jog =>
    match args with
    | [_, _, _, _] => exact hk.takeJog s _ _ _ h
    | [] | [_] | [_, _] | [_, _, _] | _ :: _ :: _ :: _ :: _ :: _ => exact h
  | linkcfg =>
    match args with
    | [_, _, _, _, _] => exact hk.configureLink s _ _ _ h
    | [] | [_] | [_, _] | [_, _, _] | [_, _, _, _] | _ :: _ :: _ :: _ :: _ :: _ :: _ => exact h
  | permit =>
    match args with
    | [] => exact hk.takePermit s h
    | _ :: _ => exact h
  | restart =>
    match args with
    | [] => exact hk.takeRestart s h
    | _ :: _ => exact h

end KeptByOwners

namespace KeptByEvents

variable {P Q : State → Prop} (hk : KeptByEvents P)
include hk

theorem takeJogExpiry {s : State} (h : P s) : P s.takeJogExpiry := by
  unfold State.takeJogExpiry
  split
  · exact hk.endJog s .hold h
  · exact h

/-- The end of the moment, and the tick. -/
theorem tick {s : State} (h : P s) : P s.tick := by
  have ht : P s.endMoment := hk.deliverEvents _ (hk.deliverWaiting _ h)
  unfold State.tick
  generalize s.endMoment = t at ht ⊢
  dsimp only
  split
  · exact hk.count t ht
  · exact hk.pending t _ ht

/-- What a command comes to, with what the port does of it given: the console's commands, whose owners keep `Q`, a byte, and
the edges of CS_N. -/
theorem exec {s t : State} (h : P s) (ho : KeptByOwners Q)
    (console : ∀ (code : ConsoleCode) (args : List Byte) (owner : State → State × Answer), (∀ u, Q u → Q (owner u).1) →
      P (s.console code args owner))
    (byte : ∀ b, P (s.receiveByte b)) (fall : P s.takeCsFall) (rise : P s.takeCsRise) (c : Instr)
    (he : exec c s = .next t) : P t := by
  have done : ∀ u : State, P u → complete u = .next t → P t := fun u hu e => by
    cases e
    exact hk.repace u hu
  cases c with
  | look kind block index => exact done _ (console _ _ _ fun t ht => ho.takeLook t _ _ _ ht) he
  | continueByte => exact done _ (byte _) he
  | nullByte => exact done _ (byte _) he
  | unknownCommandByte b => exact done _ (byte _) he
  | summary => exact done _ (console _ _ _ fun t ht => ht) he
  | clrattn kind index => exact done _ (console _ _ _ fun t => ho.clearAttention t _ _) he
  | admitHoist slot address lower upper trim => exact done _ (console _ _ _ fun t => ho.admitSlot t _ _ _ _ _) he
  | amend slot lower upper trim overload underload shift jogDemand =>
    exact done _ (console _ _ _ fun t => ho.amend t _ _ _ _ _ _ _ _) he
  | retire slot => exact done _ (console _ _ _ fun t => ho.retire t _) he
  | assign slot group => exact done _ (console _ _ _ fun t => ho.assign t _ _) he
  | clrflags slot => exact done _ (console _ _ _ fun t => ho.clearFlags t _) he
  | setgroup group level gain landing mask stepPeriod settle holdMs stopMs landMs =>
    exact done _ (console _ _ _ fun t => ho.setGroup t _ _ _ _ _ _ _ _ _ _) he
  | queue group target cruise accel source after =>
    exact done _ (console _ _ _ fun t => ho.queueCue t _ _ _ _ _ _) he
  | flush group => exact done _ (console _ _ _ fun t => ho.flush t _) he
  | arm group => exact done _ (console _ _ _ fun t => ho.arm t _) he
  | go group => exact done _ (console _ _ _ fun t ht => ho.go ht _) he
  | hold group => exact done _ (console _ _ _ fun t ht => ho.takeHold ht _) he
  | hold8 => exact done _ (console _ _ _ fun t => ho.holdJog t) he
  | halt group => exact done _ (console _ _ _ fun t ht => ho.takeHalt ht _) he
  | halt8 => exact done _ (console _ _ _ fun t => ho.endJog t .halt) he
  | stagespd group cruise => exact done _ (console _ _ _ fun t => ho.stageSpeed t _ _) he
  | stagetgt group target => exact done _ (console _ _ _ fun t => ho.stageTarget t _ _) he
  | ackfault group => exact done _ (console _ _ _ fun t => ho.ackFault t _) he
  | jog slot direction distance => exact done _ (console _ _ _ fun t => ho.takeJog t _ _ _) he
  | linkcfg timeout threshold idle => exact done _ (console _ _ _ fun t => ho.configureLink t _ _ _) he
  | permit => exact done _ (console _ _ _ fun t => ho.takePermit t) he
  | restart => exact done _ (console _ _ _ fun t => ho.takeRestart t) he
  | csFallingEdge => exact done _ fall he
  | csRisingEdge => exact done _ rise he
  | porst estopLow cue0High cue1High csLow =>
    cases he
    exact hk.afterReset ..
  | estopAssertion => exact done _ (hk.takeEstopAssertion s h) he
  | estopRelease => exact done _ (hk.releaseEstop _ (by rw [s.deliverWaiting_spec.2.1]) (hk.deliverWaiting s h)) he
  | cueRisingEdge line => exact done _ (hk.riseCue _ line (hk.deliverWaiting s h)) he
  | cueFallingEdge line => exact done _ (hk.fallCue _ line (hk.deliverWaiting s h)) he
  | stepTimerExpiry group =>
    have he : execStepTimerExpiry group s = .next t := he
    unfold execStepTimerExpiry at he
    split at he
    · next u hu => exact done u (hk.takeStepExpiry s group h u hu) he
    · cases he
  | holdTimerExpiry group => exact done _ (hk.takeHoldExpiry s group h) he
  | landingTimerExpiry group => exact done _ (hk.takeLandingExpiry s group h) he
  | stopTimerExpiry group => exact done _ (hk.takeStopExpiry s group h) he
  | jogHoldTimerExpiry => exact done _ (hk.takeJogExpiry h) he
  | responseTimerExpiry => exact done _ (hk.takeResponseExpiry s h) he
  | roundStart => exact done _ (hk.takeRoundStart s h) he
  | poll => exact done _ (hk.pollNext _ s.deliverEvents_spec.2.2.2.1 (hk.deliverEvents s h)) he
  | endOfPoll => exact done _ (hk.takeEndOfPoll s h) he
  | haltAll => exact done _ (hk.takeHaltAll s h) he
  | statusReply address flags height load echo crc => exact done _ (hk.takeFrame s _ _ h) he
  | identReply address flags ratedLoad ratedSpeed crc => exact done _ (hk.takeFrame s _ _ h) he
  | replyFirstStartBit elapsed => exact done _ (hk.takeFirstStartBit s elapsed h) he
  | replyByteGapExpiry bytes => exact done _ (hk.takeFrame s _ _ h) he
  | argumentByte b => exact done _ (byte _) he
  | responseByte filler => exact done _ (byte _) he

end KeptByEvents

namespace Kept

variable {P : State → Prop} (hk : Kept P)
include hk

theorem respond {r : State × Answer} (h : P r.1) : P (respond r) := hk.port _ _ h

theorem takeCommand {s : State} (h : P s) (code : ConsoleCode) (args : List Byte) : P (s.takeCommand code args) :=
  hk.respond (hk.ownerTakes (hk.port s _ h) ..)

/-- A byte on the port, in each phase. -/
theorem receiveByte {s : State} (h : P s) (b : Byte) : P (s.receiveByte b) := by
  unfold State.receiveByte
  split
  · exact h
  · unfold State.commandByte
    split
    · exact hk.port s _ h
    · split
      · exact hk.respond (hk.port s _ h)
      · split
        · exact hk.port s _ h
        · split
          · exact hk.takeCommand h ..
          · exact hk.port s _ h
  · unfold State.argumentByte
    split
    · exact hk.port s _ h
    · exact hk.takeCommand h ..
  · exact hk.port s _ h
  · exact hk.port s _ h

theorem receiveBytes {s : State} (h : P s) (bytes : List Byte) : P (s.receiveBytes bytes) := by
  unfold State.receiveBytes
  induction bytes generalizing s with
  | nil => exact h
  | cons b rest ih => exact ih (hk.repace _ (hk.receiveByte h b))

/-- A row of a console command, whether its owner takes it or its bytes are received. -/
theorem console {s : State} (h : P s) (code : ConsoleCode) (args : List Byte) {owner : State → State × Answer}
    (ho : ∀ t, P t → P (owner t).1) : P (s.console code args owner) := by
  unfold State.console
  split
  · exact hk.respond (ho _ (hk.port s _ h))
  · exact hk.receiveBytes h _

theorem takeCsFall {s : State} (h : P s) : P s.takeCsFall := by
  unfold State.takeCsFall
  split
  · exact h
  · exact hk.port s _ h

theorem takeCsRise {s : State} (h : P s) : P s.takeCsRise := by
  unfold State.takeCsRise
  split
  · exact hk.port s _ h
  · exact h

/-- Every step keeps such a property. -/
theorem step {s t : State} (h : P s) (he : step s = .next t) : P t := by
  unfold Machine.step at he
  split at he
  · cases he
    exact hk.tick h
  · next c rest _ =>
    have hp := hk.pending s rest h
    exact hk.exec hp hk.toKeptByOwners (fun code args _ ho => hk.console hp code args ho) (hk.receiveByte hp)
      (hk.takeCsFall hp) (hk.takeCsRise hp) c he

end Kept

end Sys2Proof.Machine

/-! ## The roster: address map, poll list, and which record has which address -/

namespace Sys2Proof.Machine

/-- The same records by slot and address, in the same map and the same list. -/
structure State.SameRoster (s t : State) : Prop where
  nodeMap : t.nodeMap = s.nodeMap
  pollList : t.link.pollList = s.link.pollList
  addresses : ∀ i, (t.record i).map (·.address) = (s.record i).map (·.address)

namespace State.SameRoster

theorem refl (s : State) : s.SameRoster s := ⟨rfl, rfl, fun _ => rfl⟩

theorem trans {s t u : State} (a : s.SameRoster t) (b : t.SameRoster u) : s.SameRoster u :=
  ⟨b.nodeMap.trans a.nodeMap, b.pollList.trans a.pollList, fun i => (b.addresses i).trans (a.addresses i)⟩

theorem of_slots {s t : State} (hm : t.nodeMap = s.nodeMap) (hl : t.link.pollList = s.link.pollList)
    (hs : t.slots = s.slots) : s.SameRoster t :=
  ⟨hm, hl, fun i => by rw [State.record, State.slot, hs]; rfl⟩

theorem of_moves {s t : State} (w : s.Moves t) (hm : t.nodeMap = s.nodeMap) (hl : t.link.pollList = s.link.pollList) :
    s.SameRoster t :=
  ⟨hm, hl, w.map_record _ fun _ _ => Hoist.Motion.address⟩

theorem of_work {s t : State} (w : s.GroupWork t) : s.SameRoster t :=
  of_moves w.toMoves w.tables.nodeMap (by rw [w.tables.link])

theorem modLink (s : State) {f : Link → Link} (hf : ∀ l, (f l).pollList = l.pollList) : s.SameRoster (s.modLink f) :=
  of_slots rfl (hf _) rfl

theorem modGroup (s : State) (k : GroupId) (f : Group → Group) : s.SameRoster (s.modGroup k f) := of_slots rfl rfl rfl

/-- A slot's own entry changes, its record's address not. -/
theorem modSlot (s : State) (i : Slot) {f : SlotEntry → SlotEntry}
    (hf : ∀ e, (f e).record.map (·.address) = e.record.map (·.address)) : s.SameRoster (s.modSlot i f) := by
  refine ⟨rfl, rfl, fun j => ?_⟩
  rw [State.modSlot_eq, State.record_setSlot]
  split
  · next e => subst e; exact hf _
  · rfl

theorem modRecord (s : State) (i : Slot) {f : Hoist → Hoist} (hf : ∀ h, (f h).address = h.address) :
    s.SameRoster (s.modRecord i f) :=
  modSlot s i fun e => by
    show (e.record.map f).map (·.address) = _
    rw [Option.map_map]
    congr 1
    exact funext hf

theorem foldl {α : Type} (f : State → α → State) (h : ∀ (t : State) (a : α), t.SameRoster (f t a)) (l : List α)
    (s : State) : s.SameRoster (l.foldl f s) := by
  induction l generalizing s with
  | nil => exact refl s
  | cons a l ih => exact (h s a).trans (ih _)

end State.SameRoster

/-! ### The flags of a slot -/

theorem SlotEntry.address_writeCurrent (e : SlotEntry) (new : CondSet) :
    (e.writeCurrent new).record.map (·.address) = e.record.map (·.address) := by
  cases hr : e.record with
  | none => rw [SlotEntry.writeCurrent_none hr, hr]
  | some h => rw [SlotEntry.writeCurrent_record hr]; rfl

theorem SlotEntry.address_addCurrent (c : Cond) (e : SlotEntry) :
    (e.addCurrent c).record.map (·.address) = e.record.map (·.address) := by
  unfold SlotEntry.addCurrent
  split
  · rfl
  · exact e.address_writeCurrent _

theorem SlotEntry.address_removeCurrent (c : Cond) (e : SlotEntry) :
    (e.removeCurrent c).record.map (·.address) = e.record.map (·.address) := by
  unfold SlotEntry.removeCurrent
  split
  · rfl
  · exact e.address_writeCurrent _

section Roster
variable (s : State)

theorem State.slotAttention_roster (i : Slot) : s.SameRoster (s.slotAttention i) := .modSlot s i fun _ => rfl

theorem State.endJog_roster (cause : JogEndCause) : s.SameRoster (s.endJog cause) := by
  rcases s.endJog_cases cause with ⟨-, h⟩ | ⟨i, -, h⟩ <;> rw [h]
  · exact .refl s
  · refine State.SameRoster.trans ?_ (State.slotAttention_roster _ i)
    refine State.SameRoster.trans (t := { s with
      safety := { s.safety with jogSlot := none, jogTimer := none, lastJogEnd := some ⟨i, cause⟩ } })
      (.of_slots rfl rfl rfl) (.modRecord _ i fun h => ?_)
    unfold Hoist.endJog
    split <;> rfl

/-! ### DLC -/

theorem State.repace_roster : s.SameRoster s.repace := .of_moves s.repace_moves (by simp) (by simp)

theorem State.endPoll_roster (i : Slot) (rest : Nat) : s.SameRoster (s.endPoll i rest) :=
  .of_moves (s.endPoll_moves i rest) (by simp) (by simp)

theorem State.deliverEvents_roster : s.SameRoster s.deliverEvents :=
  .of_moves s.deliverEvents_moves s.deliverEvents_spec.1 s.deliverEvents_spec.2.2.1

theorem State.takeDelivery_roster : s.SameRoster s.takeDelivery :=
  .of_moves s.takeDelivery_moves s.takeDelivery_spec.1 s.takeDelivery_spec.2.2.2.2.2.2

theorem State.deliverWaiting_roster : s.SameRoster s.deliverWaiting :=
  .of_moves s.deliverWaiting_moves s.deliverWaiting_spec.1 s.deliverWaiting_spec.2.2.2.2.2

theorem State.beginPoll_roster (i : Slot) (h : Hoist) : s.SameRoster (s.beginPoll i h) :=
  (State.SameRoster.modRecord s i (f := fun r => { r with seqBit := !h.seqBit }) fun _ => rfl).trans
    (.modLink _ fun _ => rfl)

theorem State.pollNext_roster : s.SameRoster s.pollNext := by
  unfold State.pollNext
  split
  · split
    · exact .refl s
    · split
      · exact .refl s
      · exact s.beginPoll_roster ..
  · exact .refl s

theorem State.takeEndOfPoll_roster : s.SameRoster s.takeEndOfPoll := by
  unfold State.takeEndOfPoll
  split
  · split
    · exact .of_slots rfl rfl rfl
    · exact .refl s
  · exact .refl s

theorem State.takeHaltAll_roster : s.SameRoster s.takeHaltAll := by
  unfold State.takeHaltAll
  split
  · exact .of_slots rfl rfl rfl
  · exact .refl s

theorem State.takeRoundStart_roster : s.SameRoster s.takeRoundStart := by
  unfold State.takeRoundStart
  split
  · split
    · exact .refl s
    · split <;> exact .of_slots rfl rfl rfl
  · exact .refl s

/-! ### Losses and misses -/

theorem State.lose_roster (i : Slot) (h : Hoist) : s.SameRoster (s.lose i h) := by
  unfold State.lose
  have ht : s.SameRoster (((s.modRecord i Hoist.lose).modSlot i (SlotEntry.addCurrent .lost)).slotAttention i) :=
    ((State.SameRoster.modRecord s i (f := Hoist.lose) fun _ => rfl).trans
        (.modSlot _ i (SlotEntry.address_addCurrent .lost))).trans
      (State.slotAttention_roster _ i)
  generalize ((s.modRecord i Hoist.lose).modSlot i (SlotEntry.addCurrent .lost)).slotAttention i = t at ht
  have hu : s.SameRoster (match h.group with
      | some k => t.lossEvent k i (some h.missCount)
      | none => t) := by
    split
    · exact ht.trans (.of_work (t.lossEvent_work ..))
    · exact ht
  dsimp only
  split
  · exact hu.trans (State.endJog_roster ..)
  · exact hu

theorem State.lowerCount_roster (new : Nat) (i : Slot) : s.SameRoster (s.lowerCount new i) := by
  unfold State.lowerCount
  split
  · exact .refl s
  · split
    · exact (State.SameRoster.modRecord s i (f := fun r => { r with missCount := new }) fun _ => rfl).trans
        (State.lose_roster ..)
    · split
      · exact .modRecord s i fun _ => rfl
      · exact .refl s

theorem State.raiseCount_roster (new : Nat) (i : Slot) : s.SameRoster (s.raiseCount new i) := by
  unfold State.raiseCount
  split
  · exact .modRecord s i fun _ => rfl
  · exact .refl s

theorem State.applyThreshold_roster (old new : Nat) : s.SameRoster (s.applyThreshold old new) := by
  unfold State.applyThreshold
  split
  · exact .foldl _ (fun t i => t.lowerCount_roster new i) _ s
  · split
    · exact .foldl _ (fun t i => t.raiseCount_roster new i) _ s
    · exact .refl s

/-! ### Replies -/

theorem State.acceptReply_roster (i : Slot) : s.SameRoster (s.acceptReply i) :=
  (State.SameRoster.modRecord s i (f := fun h => { h with missCount := 0 }) fun _ => rfl).trans
    (.modSlot _ i (SlotEntry.address_removeCurrent .linkErr))

theorem State.jogProgress_roster (i : Slot) : s.SameRoster (s.jogProgress i) := by
  unfold State.jogProgress
  split
  · exact .refl s
  · split
    · split
      · exact s.endJog_roster _
      · split
        · exact s.endJog_roster _
        · exact .refl s
    · exact .refl s

theorem State.address_evaluation (h : Hoist) : (s.evaluation h).hoist.address = h.address := by
  rw [State.evaluation_fields]

theorem State.evaluated_roster {i : Slot} {h : Hoist} (hr : s.record i = some h) : s.SameRoster (s.evaluated i h) := by
  refine ⟨rfl, rfl, fun j => ?_⟩
  rw [State.evaluated, State.record_setSlot]
  split
  · next e =>
    subst e
    rw [SlotEntry.address_writeCurrent, hr, Option.map_some, Option.map_some, s.address_evaluation]
  · rfl

theorem State.handed_roster (i : Slot) (k : Option GroupId) (before after stopped : Bool) :
    s.SameRoster (s.handed i k before after stopped) :=
  (State.SameRoster.of_work (s.handed_work i k before after stopped)).trans (State.jogProgress_roster _ i)

theorem State.evaluate_roster (i : Slot) (stopped : Bool) : s.SameRoster (s.evaluate i stopped) := by
  cases hr : s.record i with
  | none =>
    have : s.evaluate i stopped = s := by simp [State.evaluate, hr]
    rw [this]; exact .refl s
  | some h =>
    have ht := s.evaluated_roster hr
    rcases State.evaluate_cases hr stopped with ⟨-, e⟩ | ⟨ev, -, e | e⟩
    · rw [e]; exact ht.trans (State.handed_roster ..)
    · rw [e]
      refine State.SameRoster.trans (t := { s.evaluated i h with freeCount := (s.evaluated i h).freeCount + 1 }) ?_
        (State.handed_roster ..)
      exact ht.trans (.of_slots rfl rfl rfl)
    · rw [e]
      exact ht.trans (.of_slots rfl rfl rfl)

theorem State.recover_roster (i : Slot) (h : Hoist) : s.SameRoster (s.recover i h) :=
  (State.SameRoster.modSlot s i (SlotEntry.address_removeCurrent .lost)).trans (.modRecord _ i fun _ => rfl)

end Roster

/-! ### The operations with which a record can leave its slot -/

/-- The roster stays, or the record of one slot leaves it. -/
inductive State.RosterChange (s t : State) : Prop
  | same : s.SameRoster t → State.RosterChange s t
  | left (u : State) (i : Slot) (h : Hoist) (cause : Release) : s.SameRoster u →
      (u.record i).map (·.address) = some h.address → (u.leaveSlot i h cause).SameRoster t → State.RosterChange s t

namespace State.RosterChange

theorem refl (s : State) : s.RosterChange s := .same (.refl s)

theorem before {s t u : State} (a : s.SameRoster t) (b : t.RosterChange u) : s.RosterChange u := by
  cases b with
  | same b => exact .same (a.trans b)
  | left v i h cause hv hr hl => exact .left v i h cause (a.trans hv) hr hl

theorem after {s t u : State} (a : s.RosterChange t) (b : t.SameRoster u) : s.RosterChange u := by
  cases a with
  | same a => exact .same (a.trans b)
  | left v i h cause hv hr hl => exact .left v i h cause hv hr (hl.trans b)

theorem noted {s : State} {i : Slot} {h : Hoist} (hr : s.record i = some h) (cause : Release) :
    s.RosterChange (s.leaveSlotNoted i h cause) :=
  .left (s.slotAttention i) i h cause (s.slotAttention_roster i)
    (((s.slotAttention_roster i).addresses i).trans (by rw [hr]; rfl)) (.refl _)

end State.RosterChange

section Changes
variable (s : State)

theorem State.thresholdEvent_roster {i : Slot} {h : Hoist} (hr : s.record i = some h) :
    s.RosterChange (s.thresholdEvent i h) := by
  unfold State.thresholdEvent
  split
  · exact .noted hr _
  · exact .noted hr _
  · exact .refl s
  all_goals exact .same (s.lose_roster i h)

theorem State.miss_roster (i : Slot) (reason : MissReason) : s.RosterChange (s.miss i reason) := by
  unfold State.miss
  have ht : s.SameRoster ((s.modRecord i fun h => h.countMiss reason s.link.lossThreshold).modSlot i
      (SlotEntry.addCurrent .linkErr)) :=
    (State.SameRoster.modRecord s i (f := fun h => h.countMiss reason s.link.lossThreshold) fun _ => rfl).trans
      (.modSlot _ i (SlotEntry.address_addCurrent .linkErr))
  generalize (s.modRecord i fun h => h.countMiss reason s.link.lossThreshold).modSlot i (SlotEntry.addCurrent .linkErr) = t
    at ht
  dsimp only
  split
  · exact .same ht
  · next hr =>
    split
    · exact .before ht (t.thresholdEvent_roster hr)
    · exact .same ht

theorem State.statusTransition_roster (i : Slot) (flags : Byte) : s.RosterChange (s.statusTransition i flags) := by
  unfold State.statusTransition
  split
  · exact .refl s
  · next hr =>
    split
    · split
      · exact .same (.modRecord s i fun _ => rfl)
      · exact .refl s
    · exact .same (s.recover_roster ..)
    · split
      · exact .noted hr _
      · exact .refl s
    all_goals exact .refl s

theorem State.takeStatus_roster (i : Slot) (flags : Byte) (height load : Nat) :
    s.RosterChange (s.takeStatus i flags height load) :=
  .before ((s.acceptReply_roster i).trans (.modRecord _ i (f := fun h => h.report flags height load) fun _ => rfl))
    ((State.statusTransition_roster _ i flags).after (State.evaluate_roster ..))

theorem State.takeIdent_roster (i : Slot) (flags : Byte) (ratedLoad ratedSpeed : Nat) :
    s.RosterChange (s.takeIdent i flags ratedLoad ratedSpeed) := by
  unfold State.takeIdent
  have ht : s.SameRoster ((s.acceptReply i).modRecord i fun h => { h with nodeFlags := some flags }) :=
    (s.acceptReply_roster i).trans (.modRecord _ i fun _ => rfl)
  generalize (s.acceptReply i).modRecord i (fun h => { h with nodeFlags := some flags }) = t at ht
  dsimp only
  split
  · exact .same ht
  · next hr =>
    split
    · refine .same (ht.trans (State.SameRoster.trans ?_ (State.slotAttention_roster _ i)))
      exact .modRecord t i fun _ => rfl
    · exact .before ht (.noted hr _)

theorem State.judgeAndTake_roster (p : PollInFlight) (early : Bool) (bytes : List Byte) :
    s.RosterChange (s.judgeAndTake p early bytes) := by
  unfold State.judgeAndTake State.applyReply
  split
  · exact .refl s
  · split
    · exact s.miss_roster ..
    · split
      · exact s.miss_roster ..
      · split
        · exact s.takeStatus_roster ..
        · exact s.takeIdent_roster ..

theorem State.takeFrame_roster (bytes : List Byte) (rest : Nat) : s.RosterChange (s.takeFrame bytes rest) := by
  unfold State.takeFrame
  split
  · split
    · refine .after (.after ?_ (State.endPoll_roster ..)) (State.deliverWaiting_roster _)
      split
      · exact .refl s
      · exact s.judgeAndTake_roster ..
    all_goals exact .refl s
  · split
    · exact .same (.of_slots rfl rfl rfl)
    · exact .refl s

theorem State.takeResponseExpiry_roster : s.RosterChange s.takeResponseExpiry := by
  unfold State.takeResponseExpiry
  split
  · split
    · refine .after ?_ (State.endPoll_roster ..)
      split
      · exact .refl s
      · exact s.miss_roster ..
    all_goals exact .refl s
  · exact .refl s

theorem State.takeFirstStartBit_roster (elapsed : Nat) : s.RosterChange (s.takeFirstStartBit elapsed) := by
  unfold State.takeFirstStartBit
  split
  · split
    · split
      · exact .same (.of_slots rfl rfl rfl)
      · exact s.takeResponseExpiry_roster
    all_goals exact .refl s
  · exact .refl s

theorem State.leaveGroup_roster (i : Slot) : s.SameRoster (s.leaveGroup i) := by
  unfold State.leaveGroup
  split
  · exact .refl s
  · next k _ =>
    exact (State.SameRoster.modGroup s k fun g => g.dropMember i).trans
      (.modRecord _ i (f := fun h => { h with group := none }) fun _ => rfl)

theorem State.retire_roster (slot : Byte) : s.RosterChange (s.retire slot).1 := by
  unfold State.retire
  split
  · exact .refl s
  · next i _ =>
    split
    · exact .refl s
    · next h hr =>
      split
      · exact .refl s
      · split
        · exact .refl s
        · dsimp only
          have ht := s.leaveGroup_roster i
          split
          · exact .same (ht.trans (.modRecord _ i fun _ => rfl))
          · exact .left _ i h _ ht ((ht.addresses i).trans (by rw [hr]; rfl)) (.refl _)

end Changes

end Sys2Proof.Machine

/-! ## What a console command writes in one group, and in one slot -/

namespace Sys2Proof.Machine

/-- What a console command writes in a group record, in the state in which it is taken (R36 to R49, R118, R126, R176). -/
inductive State.GroupEdit (s : State) (k : GroupId) : Group → Prop
  | settings (t : Settings) : t.Ok → s.GroupEdit k { s.group k with settings := t }
  | queue (c : Cue) : (s.group k).queue.length < 4 → c.Ok k →
      s.GroupEdit k { s.group k with queue := (s.group k).queue ++ [c] }
  | flush : (s.group k).state.atRest = true → s.GroupEdit k { s.group k with queue := [] }
  | convert (p : PendingFault) : (s.group k).state = .idle → s.GroupEdit k ((s.group k).convert p)
  | arm (cue : Cue) (level : Int) : (s.group k).state = .idle → (s.group k).head = some cue → s.mainsEn = true →
      (s.group k).pendingFault = none → s.everyMember k Hoist.readyToMove = true →
      s.GroupEdit k ((s.group k).arm cue level (s.minRatedSpeed k))
  | disarm : (s.group k).state = .armed → s.GroupEdit k { (s.group k).stopTimers with state := .idle }
  | hold (t : Nat) : (s.group k).state = .moving → (s.group k).holdSource = some .console →
      s.GroupEdit k { s.group k with holdTimer := some t }
  | stageSpeed (v : Nat) : (s.group k).state = .moving → v ≤ 300 →
      s.GroupEdit k { s.group k with stagedSpeed := some v }
  | stageTarget (t : Nat) : (s.group k).state = .moving → t ≤ 50000 →
      s.GroupEdit k { s.group k with stagedTarget := some t }
  | acknowledge : (s.group k).state = .faulted →
      s.GroupEdit k { (s.group k).stopTimers with state := .idle, firstFault := none, stopCause := none }
  | dropPending : s.GroupEdit k { s.group k with pendingFault := none }
  | clearAttention : s.GroupEdit k { s.group k with attention := false }

/-- Nothing changes, or one group's record as a command writes it. -/
def State.EditsGroup (s t : State) : Prop := t = s ∨ ∃ k g, s.GroupEdit k g ∧ t = s.withGroup k g

theorem State.EditsGroup.refl (s : State) : s.EditsGroup s := .inl rfl

section Groups
variable (s : State)

theorem settingsOf_ok (level gain landing mask stepPeriod settle : Byte) (holdMs stopMs landMs : BitVec 16) :
    (settingsOf level gain landing mask stepPeriod settle holdMs stopMs landMs).Ok := by
  have hg := gain.isLt
  have hs := settle.isLt
  simp only [settingsOf, Settings.Ok, clampTens_eq (show 10 ≤ 100 by omega), clampTo_eq (show 1 ≤ 200 by omega),
    clampTo_eq (show 1 ≤ 20 by omega), clampTo_eq (show 100 ≤ 1000 by omega), clampTo_eq (show 500 ≤ 5000 by omega),
    clampTo_eq (show 1000 ≤ 30000 by omega), intoRange]
  omega

theorem State.setGroup_edits (group level gain landing mask stepPeriod settle : Byte) (holdMs stopMs landMs : BitVec 16) :
    s.EditsGroup (s.setGroup group level gain landing mask stepPeriod settle holdMs stopMs landMs).1 := by
  unfold State.setGroup
  split
  · exact .refl s
  · split
    · exact .inr ⟨_, _, .settings _ (settingsOf_ok ..), rfl⟩
    · exact .refl s

theorem sourceOf_ne {named : GroupId} {source after : Byte} {src : StartSource}
    (h : sourceOf named source after = some src) :
    src ≠ .after named := by
  unfold sourceOf at h
  split at h
  · cases h; simp
  · split at h
    · cases h; simp
    · split at h
      · cases h; simp
      · split at h
        · split at h
          · split at h
            · cases h
            · next hn => cases h; simpa using hn
          · cases h
        · cases h

theorem State.queueCue_edits (group : Byte) (target cruise accel : BitVec 16) (source after : Byte) :
    s.EditsGroup (s.queueCue group target cruise accel source after).1 := by
  unfold State.queueCue
  split
  · exact .refl s
  · next k _ =>
    split
    · exact .refl s
    · next ht =>
      split
      · exact .refl s
      · next src hsrc =>
        split
        · exact .refl s
        · next hl =>
          refine .inr ⟨_, _, .queue ⟨target.toNat, _, _, src⟩ (by simpa [Config.queueDepth] using hl) ?_, rfl⟩
          simp only [Config.heightMax] at ht
          simp only [Cue.Ok, clampTo_eq (show 1 ≤ 300 by omega), clampTo_eq (show 10 ≤ 1000 by omega), intoRange]
          refine ⟨by omega, by omega, by omega, by omega, by omega, sourceOf_ne hsrc⟩

theorem State.flush_edits (group : Byte) : s.EditsGroup (s.flush group).1 := by
  unfold State.flush
  split
  · exact .refl s
  · split
    · next h => exact .inr ⟨_, _, .flush h, rfl⟩
    · exact .refl s

theorem State.arm_edits (group : Byte) : s.EditsGroup (s.arm group).1 := by
  unfold State.arm
  split
  · exact .refl s
  · next k _ =>
    dsimp only
    split
    · exact .refl s
    · next hs =>
      have hs : (s.group k).state = .idle := not_not.1 hs
      split
      · exact .refl s
      · next cue hc =>
        split
        · exact .refl s
        · next hp =>
          split
          · next p _ => exact .inr ⟨_, _, .convert p hs, rfl⟩
          · next hpf =>
            split
            · exact .refl s
            · next hr =>
              split
              · exact .refl s
              · split
                · exact .refl s
                · split
                  · exact .refl s
                  · exact .inr ⟨_, _, .arm cue _ hs hc (by simpa using hp) hpf (by simpa using hr), rfl⟩

theorem State.holdGroup_edits (k : GroupId) : s.EditsGroup (s.holdGroup k).1 := by
  unfold State.holdGroup
  split
  · next h => exact .inr ⟨_, _, .hold _ h.1 h.2, rfl⟩
  · exact .refl s

theorem cappedSpeed_le (slowest : Option Nat) (cruise : Nat) : cappedSpeed slowest cruise ≤ cruise := by
  unfold cappedSpeed
  split
  · exact Nat.min_le_left ..
  · exact Nat.le_refl _

theorem State.stageSpeed_edits (group : Byte) (cruise : BitVec 16) : s.EditsGroup (s.stageSpeed group cruise).1 := by
  unfold State.stageSpeed
  split
  · exact .refl s
  · next k _ =>
    split
    · next h =>
      refine .inr ⟨_, _, .stageSpeed _ h ((cappedSpeed_le ..).trans ?_), rfl⟩
      rw [clampTo_eq (by omega)]
      unfold intoRange
      omega
    · exact .refl s

theorem State.stageTarget_edits (group : Byte) (target : BitVec 16) : s.EditsGroup (s.stageTarget group target).1 := by
  unfold State.stageTarget
  split
  · exact .refl s
  · next k _ =>
    dsimp only
    split
    · next hs _ _ _ =>
      split
      · exact .refl s
      · next ht =>
        split
        · exact .refl s
        · split
          · exact .refl s
          · exact .inr ⟨_, _, .stageTarget _ hs (by simpa [Config.heightMax] using ht), rfl⟩
    · exact .refl s

theorem State.ackFault_edits (group : Byte) : s.EditsGroup (s.ackFault group).1 := by
  unfold State.ackFault
  split
  · exact .refl s
  · split
    · next h =>
      split
      · exact .refl s
      · exact .inr ⟨_, _, .acknowledge h, rfl⟩
    · exact .inr ⟨_, _, .dropPending, rfl⟩
    · exact .refl s

/-- HALT of a group disarms it or stops it. -/
theorem State.haltGroup_cases (k : GroupId) :
    s.EditsGroup (s.haltGroup k) ∨ (s.group k).state = .moving ∧ s.haltGroup k = s.enterStopping k .halt none none := by
  unfold State.haltGroup
  split
  · next h => exact .inl (.inr ⟨_, _, .disarm h, rfl⟩)
  · next h => exact .inr ⟨h, rfl⟩
  · exact .inl (.refl s)

/-- What a command writes in a group leaves every slot and every other group. -/
theorem State.EditsGroup.eq {s t : State} (h : s.EditsGroup t) : t = { s with groups := t.groups } := by
  rcases h with rfl | ⟨k, g, -, rfl⟩ <;> rfl

end Groups

/-! ### One slot -/

/-- The limits, the percentages and the accrued set of a record, as AMEND and CLRFLAGS write them (R21, R119). -/
structure Hoist.Edit (h r : Hoist) : Prop where
  fields : r = { h with
    lower := r.lower, upper := r.upper, trim := r.trim, overloadPct := r.overloadPct, underloadPct := r.underloadPct,
    shiftPct := r.shiftPct, jogDemand := r.jogDemand, accrued := r.accrued }
  config : h.ConfigOk → r.ConfigOk
  accrued : r.accrued = h.accrued ∨ r.accrued = []

/-- Nothing changes, or one slot: its attention, or its record as a command writes it. -/
def State.EditsSlot (s t : State) : Prop :=
  t = s ∨ ∃ i e, t = s.setSlot i e ∧
    (e.record = s.record i ∨ ∃ h r, s.record i = some h ∧ h.Edit r ∧ e.record = some r)

theorem State.EditsSlot.refl (s : State) : s.EditsSlot s := .inl rfl

theorem State.EditsSlot.modRecord {s : State} {i : Slot} {h : Hoist} (hr : s.record i = some h) {f : Hoist → Hoist}
    (hf : h.Edit (f h)) : s.EditsSlot (s.modRecord i f) :=
  .inr ⟨i, _, State.modRecord_eq_setSlot hr f, .inr ⟨h, f h, hr, hf, rfl⟩⟩

theorem State.amend_edits (s : State) (slot : Byte) (lower upper trim : BitVec 16) (overload underload shift : Byte)
    (jogDemand : BitVec 16) : s.EditsSlot (s.amend slot lower upper trim overload underload shift jogDemand).1 := by
  unfold State.amend
  split
  · exact .refl s
  · split
    · exact .refl s
    · next h hr =>
      split
      · exact .refl s
      · split
        · exact .refl s
        · split
          · exact .refl s
          · next hl =>
            have hl : limitsValid lower.toNat upper.toNat trim.toInt = true := by simpa using hl
            obtain ⟨h1, h2, h3, h4⟩ := (limitsValid_iff ..).1 hl
            refine .modRecord hr ⟨rfl, fun hc => ?_, .inl rfl⟩
            simp only [Hoist.ConfigOk] at hc
            simp only [Hoist.ConfigOk, clampTo_eq (show 100 ≤ 125 by omega), clampTo_eq (show 10 ≤ 90 by omega),
              clampTo_eq (show 5 ≤ 50 by omega), clampTo_eq (show 50 ≤ 500 by omega), intoRange]
            omega

theorem State.clearFlags_edits (s : State) (slot : Byte) : s.EditsSlot (s.clearFlags slot).1 := by
  unfold State.clearFlags
  split
  · exact .refl s
  · split
    · exact .refl s
    · next h hr => exact .modRecord hr ⟨rfl, id, .inr rfl⟩

/-- CLRATTN clears one attention flag, or SLB's two. -/
theorem State.clearAttention_cases (s : State) (kind index : Byte) :
    s.EditsGroup (s.clearAttention kind index).1 ∨ s.EditsSlot (s.clearAttention kind index).1 ∨
      (s.clearAttention kind index).1 =
        { s with safety := { s.safety with estopSeen := false, estopCleared := false } } := by
  unfold State.clearAttention
  split
  · exact .inl (.refl s)
  · split
    · next i _ => exact .inr (.inl (.inr ⟨i, _, rfl, .inl rfl⟩))
    · exact .inl (.refl s)
  · split
    · exact .inl (.inr ⟨_, _, .clearAttention, rfl⟩)
    · exact .inl (.refl s)
  · exact .inr (.inr rfl)

/-- JOG starts the jog of a ready hoist that may jog, or changes nothing (R129, R130). -/
theorem State.takeJog_cases (s : State) (slot direction : Byte) (distance : BitVec 16) :
    (s.takeJog slot direction distance).1 = s ∨ ∃ i h dir d p, s.record i = some h ∧ h.state = .ready ∧
      s.groupAllows h GroupState.atRest = true ∧ s.anyJogging = false ∧ s.mainsEn = true ∧ h.height = some p ∧ 1 ≤ d ∧
      d ≤ 500 ∧ (s.takeJog slot direction distance).1 = s.startJog i dir d p := by
  unfold State.takeJog
  split
  · exact .inl rfl
  · next i _ =>
    split
    · exact .inl rfl
    · next dir _ =>
      split
      · exact .inl rfl
      · next hd =>
        simp only [Config.jogDistMax] at hd
        split
        · exact .inl rfl
        · next h hr =>
          split
          · exact .inl rfl
          · next hs =>
            split
            · exact .inl rfl
            · next hg =>
              split
              · exact .inl rfl
              · next hj =>
                split
                · exact .inl rfl
                · next hp =>
                  split
                  · exact .inl rfl
                  · next p hh =>
                    split
                    · exact .inl rfl
                    · exact .inr ⟨i, h, dir, _, p, hr, not_not.1 hs, by simpa using hg, by simpa using hj,
                        by simpa using hp, hh, by omega, by omega, rfl⟩

/-- ASSIGN takes a record that may leave its group out of it and, unless it is for no group, into another (R32, R33). -/
theorem State.assign_cases (s : State) (slot group : Byte) :
    (s.assign slot group).1 = s ∨ ∃ i h, s.record i = some h ∧ (h.state = .ready ∨ h.state = .lost) ∧
      s.groupAllows h GroupState.atRest = true ∧
      ((s.assign slot group).1 = s.leaveGroup i ∨ ∃ k, (s.group k).state.atRest = true ∧ h.group ≠ some k ∧
        (s.assign slot group).1 = (s.leaveGroup i).joinGroup i k) := by
  unfold State.assign
  split
  · next i target _ _ =>
    split
    · exact .inl rfl
    · next h hr =>
      split
      · exact .inl rfl
      · next hs =>
        split
        · exact .inl rfl
        · next hg =>
          have hs : h.state = .ready ∨ h.state = .lost := by tauto
          have hg : s.groupAllows h GroupState.atRest = true := by simpa using hg
          split
          · exact .inr ⟨i, h, hr, hs, hg, .inl rfl⟩
          · next k _ =>
            split
            · exact .inl rfl
            · next hk =>
              split
              · exact .inl rfl
              · next hne => exact .inr ⟨i, h, hr, hs, hg, .inr ⟨k, by simpa using hk, hne, rfl⟩⟩
  · exact .inl rfl

/-- RETIRE takes a record out of its group, and makes it retiring or empties its slot (R22). -/
theorem State.retire_cases (s : State) (slot : Byte) :
    (s.retire slot).1 = s ∨ ∃ i h, s.record i = some h ∧ s.groupAllows h GroupState.atRest = true ∧
      (h.state = .ready ∧ (s.retire slot).1 =
          (s.leaveGroup i).modRecord i (fun r => { r with state := .retiring, demand := 0, direction := .none }) ∨
        (h.state = .lost ∨ h.state = .admitting) ∧
          (s.retire slot).1 = (s.leaveGroup i).leaveSlot i h .retiredDirect) := by
  unfold State.retire
  split
  · exact .inl rfl
  · next i _ =>
    split
    · exact .inl rfl
    · next h hr =>
      split
      · exact .inl rfl
      · next hs =>
        split
        · exact .inl rfl
        · next hg =>
          have hg : s.groupAllows h GroupState.atRest = true := by simpa using hg
          dsimp only
          split
          · next hrd => exact .inr ⟨i, h, hr, hg, .inl ⟨hrd, rfl⟩⟩
          · next hrd => exact .inr ⟨i, h, hr, hg, .inr ⟨by tauto, rfl⟩⟩

/-- The state after a new record has entered a slot, the map and the list (R9). -/
def State.entered (s : State) (i : Slot) (h : Hoist) : State :=
  State.enterPollList { s.setSlot i { s.slot i with record := some h, attention := false } with
    nodeMap := insertAddress h.address i s.nodeMap } i

/-- ADMIT creates a record in an empty slot, its address new, or changes nothing (R8, R9). -/
theorem State.admitSlot_cases (s : State) (slot address : Byte) (lower upper trim : BitVec 16) :
    (s.admitSlot slot address lower upper trim).1 = s ∨ ∃ i a lo up tr, s.record i = none ∧
      lookupAddress a s.nodeMap = none ∧ 1 ≤ a ∧ a ≤ 62 ∧ limitsValid lo up tr = true ∧
      (s.admitSlot slot address lower upper trim).1 = s.entered i (Hoist.admitted a lo up tr) := by
  unfold State.admitSlot
  split
  · exact .inl rfl
  · next i _ =>
    split
    · exact .inl rfl
    · next hr =>
      split
      · exact .inl rfl
      · next ha =>
        simp only [Config.addrMin, Config.addrMax] at ha
        split
        · exact .inl rfl
        · next hd =>
          split
          · exact .inl rfl
          · next hl =>
            exact .inr ⟨i, _, _, _, _, by simpa using hr, by simpa using hd, by omega, by omega, by simpa using hl, rfl⟩

/-- LINKCFG of a part without fast rounds writes settings in their ranges and applies the threshold (R157). -/
theorem State.configureLink_cases (s : State) (timeout : BitVec 16) (threshold : Byte) (idle : BitVec 16) :
    (s.configureLink timeout threshold idle).1 = s ∨ s.fastCondition = false ∧ ∃ wait new pause,
      50 ≤ wait ∧ wait ≤ 1000 ∧ wait % 10 = 0 ∧ 1 ≤ new ∧ new ≤ 7 ∧ 50 ≤ pause ∧ pause ≤ 500 ∧ pause % 10 = 0 ∧
      (s.configureLink timeout threshold idle).1 = State.applyThreshold
        { s with link := { s.link with responseTimeout := wait, lossThreshold := new, idleInterval := pause } }
        s.link.lossThreshold new := by
  unfold State.configureLink
  split
  · exact .inl rfl
  · next hf =>
    refine .inr ⟨by simpa using hf, clampTens 50 1000 timeout.toNat, clampTo 1 7 threshold.toNat,
      clampTens 50 500 idle.toNat, ?_, ?_, ?_, ?_, ?_, ?_, ?_, ?_, rfl⟩ <;>
    simp only [clampTens_eq (show 50 ≤ 1000 by omega), clampTens_eq (show 50 ≤ 500 by omega),
      clampTo_eq (show 1 ≤ 7 by omega), intoRange] <;> omega

/-- A step expiry is a profile step, or nothing where the timer does not run (R57). -/
theorem State.takeStepExpiry_cases {s t : State} {k : GroupId} (h : s.takeStepExpiry k = some t) :
    t = s ∨ (s.group k).stepTimer.isSome = true ∧
      ∃ g, (s.group k).profileStep (s.minRatedSpeed k) = some g ∧ t = s.withGroup k g := by
  unfold State.takeStepExpiry at h
  split at h
  · next hk =>
    obtain ⟨g, hg, rfl⟩ := Option.map_eq_some_iff.1 h
    exact .inr ⟨hk, g, hg, rfl⟩
  · cases h
    exact .inl rfl

end Sys2Proof.Machine

/-! ## The laws of the roster: the node address map and the poll list -/

namespace Sys2Proof.Machine

theorem State.SameRoster.of_editsGroup {s t : State} (h : s.EditsGroup t) : s.SameRoster t := by
  rw [h.eq]
  exact .of_slots rfl rfl rfl

theorem Hoist.Edit.address {h r : Hoist} (e : h.Edit r) : r.address = h.address := by rw [e.fields]

theorem State.SameRoster.of_editsSlot {s t : State} (h : s.EditsSlot t) : s.SameRoster t := by
  rcases h with rfl | ⟨i, e, rfl, hr⟩
  · exact .refl _
  · refine ⟨rfl, rfl, fun j => ?_⟩
    rw [State.record_setSlot]
    split
    · next hij =>
      subst hij
      rcases hr with hr | ⟨h, r, hh, he, hr⟩
      · rw [hr]
      · rw [hr, hh, Option.map_some, Option.map_some, he.address]
    · rfl

theorem State.startJog_roster (s : State) (i : Slot) (dir : Travel) (distance p : Nat) :
    s.SameRoster (s.startJog i dir distance p) :=
  State.SameRoster.trans (t := s.modRecord i fun h =>
      { h with state := .jogging, demand := h.jogDemand, direction := dir.direction, jogStart := some p,
               jogDistance := some distance })
    (.modRecord s i fun _ => rfl) (.of_slots rfl rfl rfl)

theorem State.takeJog_roster (s : State) (slot direction : Byte) (distance : BitVec 16) :
    s.SameRoster (s.takeJog slot direction distance).1 := by
  rcases s.takeJog_cases slot direction distance with e | ⟨i, h, dir, d, p, -, -, -, -, -, -, -, -, e⟩ <;> rw [e]
  · exact .refl s
  · exact s.startJog_roster ..

theorem State.joinGroup_roster (s : State) (i : Slot) (k : GroupId) : s.SameRoster (s.joinGroup i k) :=
  (State.SameRoster.modRecord s i (f := fun h => { h with group := some k }) fun _ => rfl).trans (.modGroup ..)

theorem State.assign_roster (s : State) (slot group : Byte) : s.SameRoster (s.assign slot group).1 := by
  rcases s.assign_cases slot group with e | ⟨i, h, -, -, -, e | ⟨k, -, -, e⟩⟩ <;> rw [e]
  · exact .refl s
  · exact s.leaveGroup_roster i
  · exact (s.leaveGroup_roster i).trans (State.joinGroup_roster ..)

/-- Every slot changes in its own way, no address does. -/
theorem State.SameRoster.mapSlots (s : State) {f : Slot → SlotEntry → SlotEntry}
    (hf : ∀ i e, (f i e).record.map (·.address) = e.record.map (·.address)) : s.SameRoster (s.mapSlots f) :=
  ⟨by simp, by simp, fun i => by rw [State.record, State.slot_mapSlots]; exact hf i _⟩

theorem State.cutPower_roster (s : State) : s.SameRoster s.cutPower := by
  refine .mapSlots s fun i e => ?_
  show (e.record.map Hoist.cutPower).map (·.address) = _
  rw [Option.map_map]
  congr 1
  funext h
  show h.cutPower.address = h.address
  unfold Hoist.cutPower
  split <;> rfl

theorem State.assertEstop_roster (s : State) : s.SameRoster s.assertEstop :=
  ((State.SameRoster.of_slots (s := s)
    (t := { s with safety := { s.safety with estopAsserted := true, permit := false, estopSeen := true } })
    rfl rfl rfl).trans (State.cutPower_roster _)).trans (State.endJog_roster _ _)

theorem State.takeEstopAssertion_roster (s : State) : s.SameRoster s.takeEstopAssertion := by
  unfold State.takeEstopAssertion
  have h := s.assertEstop_roster
  generalize s.assertEstop = t at h
  split
  · exact .refl s
  · dsimp only
    split
    · exact h.trans (.of_slots rfl rfl rfl)
    · exact h.trans t.takeDelivery_roster

theorem State.fallCue_roster (s : State) (line : CueLine) : s.SameRoster (s.fallCue line) := by
  unfold State.fallCue
  split
  · refine State.SameRoster.trans (t := { s with safety := s.safety.setCue line false }) (.of_slots rfl rfl rfl)
      (.foldl _ (fun t k => ?_) _ _)
    split
    · exact .of_work (t.loseHold_work k)
    · exact .refl t
  · exact .refl s

theorem State.riseCue_roster (s : State) (line : CueLine) : s.SameRoster (s.riseCue line) := by
  unfold State.riseCue
  split
  · exact .refl s
  · exact State.SameRoster.trans (t := { s with safety := s.safety.setCue line true }) (.of_slots rfl rfl rfl)
      (.of_work (State.startAll_work ..))

theorem State.takeRestart_roster (s : State) : s.SameRoster s.takeRestart.1 := by
  unfold State.takeRestart
  split
  · exact .refl s
  · obtain ⟨ht, hs, -⟩ := s.restart_spec
    obtain ⟨hm, hl, -⟩ := s.restartBlocks_fields
    refine ⟨ht.nodeMap.trans hm, by rw [ht.link, hl], fun i => ?_⟩
    rw [State.record, hs]
    show ((s.slot i).record.map _).map _ = _
    rw [Option.map_map]
    rfl

/-- A law of the roster is kept by every operation, if a leaving record and a new one keep it. -/
theorem Kept.of_roster {P : State → Prop} (same : ∀ {s t : State}, s.SameRoster t → P s → P t)
    (leave : ∀ (s : State) (i : Slot) (h : Hoist) (cause : Release), (s.record i).map (·.address) = some h.address →
      P s → P (s.leaveSlot i h cause))
    (enter : ∀ (s : State) (i : Slot) (h : Hoist), s.record i = none → lookupAddress h.address s.nodeMap = none → P s →
      P (s.entered i h))
    (reset : ∀ estopLow cue0High cue1High csLow, P (State.afterReset estopLow cue0High cue1High csLow)) : Kept P := by
  have change : ∀ {s t : State}, s.RosterChange t → P s → P t := by
    intro s t a hs
    cases a with
    | same a => exact same a hs
    | left u i h cause hu hr hl => exact same hl (leave u i h cause hr (same hu hs))
  refine {
    port := ?port, pending := ?pending, repace := ?repace, takeLook := ?takeLook, clearAttention := ?clearAttention,
    admitSlot := ?admitSlot, amend := ?amend, retire := ?retire, assign := ?assign, clearFlags := ?clearFlags,
    setGroup := ?setGroup, queueCue := ?queueCue, flush := ?flush, arm := ?arm, startMove := ?startMove,
    holdJog := ?holdJog, holdGroup := ?holdGroup, haltGroup := ?haltGroup, stageSpeed := ?stageSpeed,
    stageTarget := ?stageTarget, ackFault := ?ackFault, takeJog := ?takeJog, endJog := ?endJog,
    configureLink := ?configureLink, takePermit := ?takePermit, takeRestart := ?takeRestart,
    afterReset := ?afterReset, takeEstopAssertion := ?takeEstopAssertion, deliverWaiting := ?deliverWaiting,
    deliverEvents := ?deliverEvents, releaseEstop := ?releaseEstop, riseCue := ?riseCue, fallCue := ?fallCue,
    takeStepExpiry := ?takeStepExpiry, takeHoldExpiry := ?takeHoldExpiry, takeLandingExpiry := ?takeLandingExpiry,
    takeStopExpiry := ?takeStopExpiry, takeResponseExpiry := ?takeResponseExpiry, takeRoundStart := ?takeRoundStart,
    pollNext := ?pollNext, takeEndOfPoll := ?takeEndOfPoll, takeHaltAll := ?takeHaltAll, takeFrame := ?takeFrame,
    takeFirstStartBit := ?takeFirstStartBit, count := ?count }
  case port => exact fun s p => same (.of_slots rfl rfl rfl)
  case pending => exact fun s l => same (.of_slots rfl rfl rfl)
  case repace => exact fun s => same s.repace_roster
  case takeLook =>
    intro s kind block index hs
    unfold State.takeLook
    split
    · exact hs
    · next w _ => exact same (s := s) (t := s.modPort fun p => p.looked w) (.of_slots rfl rfl rfl) hs
  case clearAttention =>
    intro s kind index
    rcases s.clearAttention_cases kind index with e | e | e
    · exact same (.of_editsGroup e)
    · exact same (.of_editsSlot e)
    · rw [e]; exact same (.of_slots rfl rfl rfl)
  case admitSlot =>
    intro s slot address lower upper trim hs
    rcases s.admitSlot_cases slot address lower upper trim with e | ⟨i, a, lo, up, tr, hr, ha, -, -, -, e⟩ <;> rw [e]
    · exact hs
    · exact enter s i _ hr ha hs
  case amend => exact fun s _ _ _ _ _ _ _ _ => same (.of_editsSlot (s.amend_edits ..))
  case retire => exact fun s slot => change (s.retire_roster slot)
  case assign => exact fun s slot group => same (s.assign_roster slot group)
  case clearFlags => exact fun s slot => same (.of_editsSlot (s.clearFlags_edits slot))
  case setGroup => exact fun s _ _ _ _ _ _ _ _ _ _ => same (.of_editsGroup (s.setGroup_edits ..))
  case queueCue => exact fun s _ _ _ _ _ _ => same (.of_editsGroup (s.queueCue_edits ..))
  case flush => exact fun s group => same (.of_editsGroup (s.flush_edits group))
  case arm => exact fun s group => same (.of_editsGroup (s.arm_edits group))
  case startMove => exact fun s k => same (.of_work (s.startMove_work k))
  case holdJog =>
    intro s
    unfold State.holdJog
    split
    · exact same (.of_slots rfl rfl rfl)
    · exact id
  case holdGroup => exact fun s k => same (.of_editsGroup (s.holdGroup_edits k))
  case haltGroup =>
    intro s k
    rcases s.haltGroup_cases k with e | ⟨-, e⟩
    · exact same (.of_editsGroup e)
    · rw [e]; exact same (.of_work (s.enterStopping_work ..))
  case stageSpeed => exact fun s _ _ => same (.of_editsGroup (s.stageSpeed_edits ..))
  case stageTarget => exact fun s _ _ => same (.of_editsGroup (s.stageTarget_edits ..))
  case ackFault => exact fun s group => same (.of_editsGroup (s.ackFault_edits group))
  case takeJog => exact fun s slot direction distance => same (s.takeJog_roster slot direction distance)
  case endJog => exact fun s cause => same (s.endJog_roster cause)
  case configureLink =>
    intro s timeout threshold idle
    rcases s.configureLink_cases timeout threshold idle with e | ⟨-, wait, new, pause, -, -, -, -, -, -, -, -, e⟩ <;> rw [e]
    · exact id
    · exact same (State.SameRoster.trans (t := { s with
        link := { s.link with responseTimeout := wait, lossThreshold := new, idleInterval := pause } })
        (.of_slots rfl rfl rfl) (State.applyThreshold_roster ..))
  case takePermit =>
    intro s
    unfold State.takePermit
    split
    · exact id
    · exact same (.of_slots rfl rfl rfl)
  case takeRestart => exact fun s => same s.takeRestart_roster
  case afterReset =>
    intro a b c d now n l
    have hr := reset a b c d
    generalize State.afterReset a b c d = r at hr ⊢
    exact same (s := r) (.of_slots rfl rfl rfl) hr
  case takeEstopAssertion => exact fun s => same s.takeEstopAssertion_roster
  case deliverWaiting => exact fun s => same s.deliverWaiting_roster
  case deliverEvents => exact fun s => same s.deliverEvents_roster
  case releaseEstop =>
    intro s _
    unfold State.releaseEstop
    split
    · exact same (.of_slots rfl rfl rfl)
    · exact id
  case riseCue => exact fun s line => same (s.riseCue_roster line)
  case fallCue => exact fun s line => same (s.fallCue_roster line)
  case takeStepExpiry =>
    intro s k hs t ht
    rcases State.takeStepExpiry_cases ht with rfl | ⟨-, g, -, rfl⟩
    · exact hs
    · exact same (s := s) (.of_slots rfl rfl rfl) hs
  case takeHoldExpiry =>
    intro s k
    unfold State.takeHoldExpiry
    split
    · exact same (.of_work (s.loseHold_work k))
    · exact id
  case takeLandingExpiry =>
    intro s k
    have ht : s.SameRoster (if s.allLanded k then s.deliverEvents else s) := by
      split
      · exact s.deliverEvents_roster
      · exact .refl s
    unfold State.takeLandingExpiry
    generalize (if s.allLanded k then s.deliverEvents else s) = t at ht
    dsimp only
    split
    · exact same (ht.trans (.of_work (t.landingExpiry_work k)))
    · exact same ht
  case takeStopExpiry =>
    intro s k
    unfold State.takeStopExpiry
    split
    · exact same (.of_work (s.stopExpiry_work k))
    · exact id
  case takeResponseExpiry => exact fun s => change s.takeResponseExpiry_roster
  case takeRoundStart => exact fun s => same s.takeRoundStart_roster
  case pollNext => exact fun s _ => same s.pollNext_roster
  case takeEndOfPoll => exact fun s => same s.takeEndOfPoll_roster
  case takeHaltAll => exact fun s => same s.takeHaltAll_roster
  case takeFrame => exact fun s bytes rest => change (s.takeFrame_roster bytes rest)
  case takeFirstStartBit => exact fun s elapsed => change (s.takeFirstStartBit_roster elapsed)
  case count =>
    intro s
    refine same ⟨rfl, ?_, fun _ => rfl⟩
    show s.link.tick.pollList = _
    unfold Link.tick
    dsimp only
    split <;> [skip; skip; split; split; skip] <;> rfl

/-! ### A record leaves its slot, and a new one enters it -/

theorem State.leavePollList_moves (s : State) (i : Slot) : s.Moves (s.leavePollList i) := by
  unfold State.leavePollList
  dsimp only
  split
  · split
    · exact .of_tables rfl rfl
    · exact .of_tables rfl rfl
  · exact (s.modLink_moves _).trans (State.completeIdleRound_moves _)
  · exact (s.modLink_moves _).trans (State.completeIdleRound_moves _)

/-- The state with a slot emptied and its address out of the map, before the poll list takes it. -/
def State.emptied (s : State) (i : Slot) (h : Hoist) (cause : Release) : State :=
  { s.setSlot i { s.slot i with record := none, release := cause, releasedAddress := some h.address } with
    nodeMap := removeAddress h.address s.nodeMap }

theorem State.leaveSlot_emptied (s : State) (i : Slot) (h : Hoist) (cause : Release) :
    s.leaveSlot i h cause = (s.emptied i h cause).leavePollList i := rfl

theorem State.record_emptied (s : State) (i j : Slot) (h : Hoist) (cause : Release) :
    (s.emptied i h cause).record j = if i = j then none else s.record j := by
  show (s.setSlot i _).record j = _
  rw [State.record_setSlot]

/-- The records by address after one has left. -/
theorem State.addresses_leaveSlot (s : State) (i j : Slot) (h : Hoist) (cause : Release) :
    ((s.leaveSlot i h cause).record j).map (·.address) = if i = j then none else (s.record j).map (·.address) := by
  rw [State.leaveSlot_emptied, (State.leavePollList_moves _ i).map_record _ (fun _ _ => Hoist.Motion.address),
    State.record_emptied]
  split <;> rfl

theorem State.record_entered (s : State) (i j : Slot) (h : Hoist) :
    (s.entered i h).record j = if i = j then some h else s.record j := by
  obtain ⟨-, hs, -⟩ := State.enterPollList_spec
    { s.setSlot i { s.slot i with record := some h, attention := false } with
      nodeMap := insertAddress h.address i s.nodeMap } i
  rw [State.entered, State.record, State.slot, hs]
  show (s.setSlot i _).record j = _
  rw [State.record_setSlot]

/-! ### The node address map (R7) -/

/-- The node address map is kept with the roster. -/
theorem State.NodeMapOk.same {s t : State} (w : s.SameRoster t) (hs : s.NodeMapOk) : t.NodeMapOk := by
  obtain ⟨hp, hin, hout⟩ := hs
  refine ⟨w.nodeMap ▸ hp, fun e he => (w.addresses e.2).trans (hin e (w.nodeMap ▸ he)), fun i r hr => ?_⟩
  obtain ⟨h, hh, ha⟩ : ∃ h, s.record i = some h ∧ h.address = r.address := by
    have := (w.addresses i).symm
    rw [hr] at this
    simpa using this
  rw [w.nodeMap, ← ha]
  exact hout i h hh

/-- Two records with one address are one record. -/
theorem State.NodeMapOk.unique {s : State} (hs : s.NodeMapOk) {e e' : Nat × Slot} (he : e ∈ s.nodeMap)
    (he' : e' ∈ s.nodeMap) (h : e.1 = e'.1) : e = e' := by
  have hn : (s.nodeMap.map Prod.fst).Nodup := List.pairwise_map.2 (hs.1.imp fun hlt => Nat.ne_of_lt hlt)
  exact List.inj_on_of_nodup_map hn he he' h

theorem State.NodeMapOk.leave {s : State} {i : Slot} {h : Hoist} (cause : Release)
    (hr : (s.record i).map (·.address) = some h.address) (hs : s.NodeMapOk) : (s.leaveSlot i h cause).NodeMapOk := by
  obtain ⟨r, hr', ha⟩ := Option.map_eq_some_iff.1 hr
  have hmem : (h.address, i) ∈ s.nodeMap := ha ▸ hs.2.2 i r hr'
  have hm := (s.leaveSlot_spec i h cause).1
  refine ⟨hm ▸ pairwise_removeAddress _ hs.1, fun e he => ?_, fun j v hv => ?_⟩
  · rw [hm, mem_removeAddress] at he
    obtain ⟨he, hne⟩ := he
    rw [s.addresses_leaveSlot, if_neg, hs.2.1 e he]
    rintro rfl
    have := (hs.2.1 e he).symm.trans hr
    exact hne (Option.some.inj this)
  · have hj := s.addresses_leaveSlot i j h cause
    rw [hv] at hj
    split at hj
    · cases hj
    · next hij =>
      obtain ⟨w, hw, hwa⟩ := Option.map_eq_some_iff.1 hj.symm
      have hwa : w.address = v.address := hwa
      rw [hm, mem_removeAddress, ← hwa]
      have hwm := hs.2.2 j w hw
      refine ⟨hwm, fun e => hij ?_⟩
      exact congrArg Prod.snd (hs.unique hmem hwm e.symm)

theorem State.NodeMapOk.enter {s : State} {i : Slot} {h : Hoist} (hr : s.record i = none)
    (ha : lookupAddress h.address s.nodeMap = none) (hs : s.NodeMapOk) : (s.entered i h).NodeMapOk := by
  have hm : (s.entered i h).nodeMap = insertAddress h.address i s.nodeMap := (State.enterPollList_spec ..).2.2.2.1
  rw [lookupAddress_none] at ha
  refine ⟨hm ▸ pairwise_insertAddress hs.1 .., fun e he => ?_, fun j v hv => ?_⟩
  · rw [hm, mem_insertAddress hs.1] at he
    rw [State.record_entered]
    rcases he with rfl | ⟨he, -⟩
    · rw [if_pos rfl]; rfl
    · rw [if_neg, hs.2.1 e he]
      rintro rfl
      have := hs.2.1 e he
      rw [hr] at this
      cases this
  · rw [State.record_entered] at hv
    rw [hm, mem_insertAddress hs.1]
    split at hv
    · next e => subst e; cases hv; exact .inl rfl
    · have hvm := hs.2.2 j v hv
      exact .inr ⟨hvm, ha _ hvm⟩

/-- The node address map is kept by every operation. -/
theorem nodeMap_kept : Kept State.NodeMapOk :=
  .of_roster (fun w hs => hs.same w) (fun _ _ _ cause hr hs => hs.leave cause hr) (fun _ _ _ hr ha hs => hs.enter hr ha)
    fun a b c d => (resetMeetsInvariant a b c d).nodeMap

/-- Settles O7: a step changes the roster by whole records only. -/
theorem stepKeepsNodeMap : Obligations.StepKeepsNodeMap := fun _ _ hs he => nodeMap_kept.step hs he

/-! ### The poll list (R143) -/

theorem State.PollListOk.same {s t : State} (w : s.SameRoster t) (hs : s.PollListOk) : t.PollListOk := by
  refine w.pollList.trans (hs.trans ?_)
  unfold State.listed
  congr 1
  funext i
  rw [← Option.isSome_map (f := Hoist.address), ← Option.isSome_map (f := Hoist.address), w.addresses i]

theorem State.PollListOk.leave {s : State} {i : Slot} {h : Hoist} (cause : Release) (hs : s.PollListOk) :
    (s.leaveSlot i h cause).PollListOk := by
  refine (s.leaveSlot_spec i h cause).2.1.trans (ascending_ext ?_ (State.pairwise_listed _) fun j => ?_)
  · exact pairwise_removeSlot i (hs ▸ s.pairwise_listed)
  · rw [mem_removeSlot, hs, State.mem_listed, State.mem_listed, ← Option.isSome_map (f := Hoist.address)
      (x := (s.leaveSlot i h cause).record j), s.addresses_leaveSlot]
    split
    · next e => subst e; simp
    · next e => simp [Ne.symm e]

theorem State.PollListOk.enter {s : State} {i : Slot} {h : Hoist} (hs : s.PollListOk) : (s.entered i h).PollListOk := by
  refine (State.enterPollList_spec ..).1.trans (ascending_ext ?_ (State.pairwise_listed _) fun j => ?_)
  · exact pairwise_insertSlot i (hs ▸ s.pairwise_listed)
  · rw [mem_insertSlot, State.mem_listed, State.record_entered]
    show j = i ∨ j ∈ s.link.pollList ↔ _
    rw [hs, State.mem_listed]
    split
    · next e => subst e; simp
    · next e => simp [Ne.symm e]

/-- The poll list is kept by every operation. -/
theorem pollList_kept : Kept State.PollListOk :=
  .of_roster (fun w hs => hs.same w) (fun _ _ _ cause _ hs => hs.leave cause) (fun _ _ _ _ _ hs => hs.enter)
    fun a b c d => (resetMeetsInvariant a b c d).pollList

end Sys2Proof.Machine

/-! ## The events of one group record

Every event of GENG changes group records by the transitions below, and each of them keeps the laws of the record. -/

namespace Sys2Proof.Machine

/-- One transition of a group record (R43, R54, R82 to R84, R108 to R116, R127). -/
inductive Group.Event : Group → Group → Prop
  | stop (g : Group) (cause : StopCause) (slot : Option Slot) (value : Option Int) : g.state = .moving →
      Group.Event g (g.beginStop cause slot value)
  | complete (g : Group) : g.state = .stopping → Group.Event g g.completeStop
  | fault (g : Group) (c : Cond) (slot : Option Slot) (value : Option Int) : g.state = .armed ∨ g.state = .settling →
      Group.Event g (g.fault c slot value)
  | post (g : Group) (c : Cond) (i : Slot) (value : Option Int) : g.state = .idle → Group.Event g (g.post c i value)
  | holdLost (g : Group) : Group.Event g { g with holdLost := true, attention := true }
  | estopped (g : Group) : g.state = .stopping → Group.Event g
      { g with stopCause := some (.fault .estop), firstFault := some (g.capture .estop none none) }
  | start (g : Group) (cue : Cue) (dir : Travel) (height : Int) : g.state = .armed → g.head = some cue →
      g.direction = some dir → Group.Event g (g.begin cue dir height)
  | arrive (g : Group) : g.state = .moving → Group.Event g g.arrive
  | settle (g : Group) : g.state = .settling → Group.Event g
      { g.stopTimers with state := .idle, settleRemaining := 0, attention := true }
  | countRound (g : Group) : g.state = .settling → ¬ g.settleRemaining ≤ 1 → Group.Event g
      { g with settleRemaining := g.settleRemaining - 1 }
  | stopExpiry (g : Group) (i : Option Slot) : g.state = .stopping → Group.Event g
      { g.stopTimers with
        firstFault := match g.firstFault with
          | none => some (g.capture .stopTime i none)
          | some f => some f
        stopCause := match g.firstFault with
          | none => some (.fault .stopTime)
          | some _ => g.stopCause
        stopTime := true
        state := .faulted
        attention := true }

namespace Group.Event

theorem members {g g' : Group} (e : g.Event g') : g'.members = g.members := by
  cases e with
  | post => exact g.members_post ..
  | arrive => exact g.members_arrive
  | _ => rfl

end Group.Event

/-- How far a group is from rest: no event takes it back. -/
def GroupState.rank : GroupState → Nat
  | .armed => 3
  | .moving => 2
  | .stopping | .settling => 1
  | .empty | .idle | .faulted => 0

section Laws
variable {g g' : Group} {k : GroupId}

/-- A group record at rest, stopping or settling: neither the profile nor its timers run (R30, R66). -/
structure Group.Still (g g' : Group) : Prop where
  settings : g'.settings = g.settings
  queue : g'.queue.Sublist g.queue
  state : g'.state ≠ .armed ∧ g'.state ≠ .moving
  timers : g'.stepTimer = none ∧ g'.holdTimer = none ∧ g'.landingTimer = none
  stopTimer : g'.stopTimer.isSome ↔ g'.state = .stopping
  motion : g'.refSpeed = 0 ∧ g'.residue = 0 ∧ g'.stagedSpeed = none ∧ g'.stagedTarget = none
  cruise : g'.cruise = g.cruise
  settle : g'.settleRemaining ≤ 255 ∧ (g'.state = .settling → 1 ≤ g'.settleRemaining)

theorem Group.Ok.still (h : g.Ok k) (hs : g.Still g') (hf : g'.FaultOk) : g'.Ok k := by
  obtain ⟨h1, ⟨q1, q2, -⟩, -, ⟨-, -, -, -, -, m1, -⟩, -, -⟩ := h
  obtain ⟨s1, s2, ⟨s3, s4⟩, ⟨t1, t2, t3⟩, t4, ⟨u1, u2, u3, u4⟩, u5, u6⟩ := hs
  refine ⟨s1 ▸ h1, ⟨s2.length_le.trans q1, fun c hc => q2 c (s2.subset hc), by tauto⟩, ?_, ?_, fun h => absurd h s4, hf⟩
  · simp [Group.TimersOk, t1, t2, t3, t4, s4]
  · have hc : ∀ v ∈ g.cruise, v ≤ 300000 := fun v hv => (m1 v hv).2
    simp only [Group.MoveOk, s3, s4, u1, u2, u3, u4, u5, u6]
    simpa using ⟨hc, u6.2⟩

theorem Group.Ok.motion (h : g.Ok k) (hs : g.state ≠ .moving) :
    g.refSpeed = 0 ∧ g.residue = 0 ∧ g.stagedSpeed = none ∧ g.stagedTarget = none := by
  obtain ⟨-, -, -, ⟨-, -, -, hm, -⟩, -, -⟩ := h
  exact hm hs

theorem Group.Ok.settleLe (h : g.Ok k) : g.settleRemaining ≤ 255 := by
  obtain ⟨-, -, -, ⟨-, -, -, -, -, -, -, -, -, hs, -⟩, -, -⟩ := h
  exact hs

theorem Group.Ok.faults (h : g.Ok k) : g.FaultOk := by
  obtain ⟨-, -, -, -, -, hf⟩ := h
  exact hf

theorem Group.Ok.timers (h : g.Ok k) : g.TimersOk := by
  obtain ⟨-, -, ht, -⟩ := h
  exact ht

/-- Outside GST_MOVING no timer of the profile runs (R30). -/
theorem Group.Ok.timersStill (h : g.Ok k) (hs : g.state ≠ .moving) :
    g.stepTimer = none ∧ g.holdTimer = none ∧ g.landingTimer = none := by
  obtain ⟨t1, t2, t3, -⟩ := h.timers
  simpa [hs] using And.intro t1 (And.intro t2 t3)

/-- A group enters a state of rest with its timers stopped, from any state but GST_MOVING. -/
theorem Group.Ok.rest (h : g.Ok k) (hs : g.state ≠ .moving) (hset : g'.settings = g.settings)
    (hq : g'.queue.Sublist g.queue) (hst : g'.state = .empty ∨ g'.state = .idle ∨ g'.state = .faulted)
    (ht : g'.stepTimer = none ∧ g'.holdTimer = none ∧ g'.landingTimer = none ∧ g'.stopTimer = none)
    (hm : g'.refSpeed = g.refSpeed ∧ g'.residue = g.residue ∧ g'.stagedSpeed = g.stagedSpeed ∧
      g'.stagedTarget = g.stagedTarget) (hc : g'.cruise = g.cruise) (hr : g'.settleRemaining ≤ g.settleRemaining)
    (hf : g'.FaultOk) : g'.Ok k := by
  obtain ⟨t1, t2, t3, t4⟩ := ht
  obtain ⟨u1, u2, u3, u4⟩ := hm
  obtain ⟨m1, m2, m3, m4⟩ := h.motion hs
  refine h.still ⟨hset, hq, ?_, ⟨t1, t2, t3⟩, ?_, ⟨u1.trans m1, u2.trans m2, u3.trans m3, u4.trans m4⟩, hc,
    hr.trans h.settleLe, ?_⟩ hf
  all_goals rcases hst with e | e | e <;> simp [e, t4]

theorem Group.Ok.beginStop (h : g.Ok k) (hs : g.state = .moving) (cause : StopCause) (slot : Option Slot)
    (value : Option Int) : (g.beginStop cause slot value).Ok k := by
  have hf := h.faults
  refine h.still ⟨rfl, .refl _, by simp [Group.beginStop], ⟨rfl, rfl, rfl⟩, by simp [Group.beginStop],
    ⟨rfl, rfl, rfl, rfl⟩, rfl, h.settleLe, by simp [Group.beginStop]⟩ ?_
  simp only [Group.FaultOk, hs] at hf
  cases cause <;> simp_all [Group.FaultOk, Group.beginStop, Group.leaveMoving, Group.stopTimers, StopCause.isFault]

theorem Group.Ok.completeStop (h : g.Ok k) (hs : g.state = .stopping) : g.completeStop.Ok k := by
  have hf := h.faults
  simp only [Group.FaultOk, hs] at hf
  cases hc : g.stopCause with
  | none => simp [hc] at hf
  | some cause =>
    have hst : g.completeStop.state = if cause.isFault = true then .faulted else .idle := by
      cases cause <;> simp [Group.completeStop, hc, StopCause.isFault]
    have hcs : g.completeStop.stopCause = some cause := hc
    refine h.rest (by simp [hs]) rfl (.refl _) ?_ ⟨rfl, rfl, rfl, rfl⟩ ⟨rfl, rfl, rfl, rfl⟩ rfl (Nat.le_refl _) ?_
    · rw [hst]; split <;> simp
    · have hff : g.completeStop.firstFault = g.firstFault := rfl
      have hpf : g.completeStop.pendingFault = g.pendingFault := rfl
      simp only [Group.FaultOk, hst, hcs, hff, hpf]
      cases hcf : cause.isFault <;> simp_all

theorem Group.Ok.fault (h : g.Ok k) (hs : g.state = .armed ∨ g.state = .settling) (c : Cond) (slot : Option Slot)
    (value : Option Int) : (g.fault c slot value).Ok k := by
  have hf := h.faults
  refine h.rest (by rcases hs with e | e <;> simp [e]) rfl (.refl _) (.inr (.inr rfl)) ⟨rfl, rfl, rfl, rfl⟩
    ⟨rfl, rfl, rfl, rfl⟩ rfl (Nat.le_refl _) ?_
  rcases hs with e | e <;> simp only [Group.FaultOk, e] at hf <;>
    simp_all [Group.FaultOk, Group.fault, Group.stopTimers, StopCause.isFault]

theorem Group.Ok.stopExpiry (h : g.Ok k) (hs : g.state = .stopping) (i : Option Slot) : Group.Ok { g.stopTimers with
    firstFault := match g.firstFault with
      | none => some (g.capture .stopTime i none)
      | some f => some f
    stopCause := match g.firstFault with
      | none => some (.fault .stopTime)
      | some _ => g.stopCause
    stopTime := true
    state := .faulted
    attention := true } k := by
  have hf := h.faults
  simp only [Group.FaultOk, hs] at hf
  refine h.rest (by simp [hs]) rfl (.refl _) (.inr (.inr rfl)) ⟨rfl, rfl, rfl, rfl⟩ ⟨rfl, rfl, rfl, rfl⟩ rfl
    (Nat.le_refl _) ?_
  cases hff : g.firstFault <;> simp_all [Group.FaultOk, Group.stopTimers, StopCause.isFault]

theorem Group.Ok.settle (h : g.Ok k) (hs : g.state = .settling) :
    Group.Ok { g.stopTimers with state := .idle, settleRemaining := 0, attention := true } k := by
  have hf := h.faults
  refine h.rest (by simp [hs]) rfl (.refl _) (.inr (.inl rfl)) ⟨rfl, rfl, rfl, rfl⟩ ⟨rfl, rfl, rfl, rfl⟩ rfl
    (Nat.zero_le _) ?_
  simp_all [Group.FaultOk, Group.stopTimers]

theorem Group.Ok.countRound (h : g.Ok k) (hs : g.state = .settling) (hr : ¬ g.settleRemaining ≤ 1) :
    Group.Ok { g with settleRemaining := g.settleRemaining - 1 } k := by
  have ht := h.timers
  have hl := h.settleLe
  simp only [Group.TimersOk, hs] at ht
  refine h.still ⟨rfl, .refl _, by simp [hs], h.timersStill (by simp [hs]), by simp [ht, hs], h.motion (by simp [hs]), rfl,
    ⟨?_, fun _ => ?_⟩⟩ h.faults
  · dsimp only; omega
  · dsimp only; omega

theorem Group.Ok.estopped (h : g.Ok k) (hs : g.state = .stopping) :
    Group.Ok { g with stopCause := some (.fault .estop), firstFault := some (g.capture .estop none none) } k := by
  have ht := h.timers
  have hf := h.faults
  simp only [Group.TimersOk, hs] at ht
  refine h.still ⟨rfl, .refl _, by simp [hs], h.timersStill (by simp [hs]), by simp [ht, hs], h.motion (by simp [hs]), rfl,
    h.settleLe, by simp [hs]⟩ ?_
  simp_all [Group.FaultOk, StopCause.isFault]

theorem Group.Ok.post (h : g.Ok k) (hs : g.state = .idle) (c : Cond) (i : Slot) (value : Option Int) :
    (g.post c i value).Ok k := by
  unfold Group.post
  split
  · obtain ⟨h1, h2, h3, h4, h5, h6⟩ := h
    refine ⟨h1, h2, h3, h4, h5, ?_⟩
    simp_all [Group.FaultOk]
  · exact h

theorem Group.Ok.arrive (h : g.Ok k) (hs : g.state = .moving) : g.arrive.Ok k := by
  have hf := h.faults
  have hset : g.settings.settleRounds ≤ 255 := by
    obtain ⟨⟨-, -, -, -, -, -, -, -, hr, -⟩, -⟩ := h
    exact hr
  simp only [Group.FaultOk, hs] at hf
  unfold Group.arrive
  split
  · refine h.still ⟨rfl, List.tail_sublist _, by simp, ⟨rfl, rfl, rfl⟩, by simp [Group.leaveMoving, Group.stopTimers],
      ⟨rfl, rfl, rfl, rfl⟩, rfl, ⟨Nat.zero_le _, by simp⟩⟩ ?_
    simp_all [Group.FaultOk, Group.leaveMoving, Group.stopTimers]
  · refine h.still ⟨rfl, List.tail_sublist _, by simp, ⟨rfl, rfl, rfl⟩, by simp [Group.leaveMoving, Group.stopTimers],
      ⟨rfl, rfl, rfl, rfl⟩, rfl, ⟨hset, fun _ => by dsimp only; omega⟩⟩ ?_
    simp_all [Group.FaultOk, Group.leaveMoving, Group.stopTimers]

/-- A height is short of a target that it does not reach. -/
theorem strictlyAhead_of_short {dir : Travel} {x target : Int} (h : atOrBeyond dir x target = false) :
    strictlyAhead dir target x = true := by
  cases dir <;> simp_all [atOrBeyond, strictlyAhead]

theorem atOrBeyond_self (dir : Travel) (x : Int) : atOrBeyond dir x x = true := by
  cases dir <;> simp [atOrBeyond]

theorem Group.Ok.begin (h : g.Ok k) (hs : g.state = .armed) {cue : Cue} {dir : Travel} (hc : g.head = some cue)
    (hd : g.direction = some dir) (height : Int) : (g.begin cue dir height).Ok k := by
  obtain ⟨h1, ⟨q1, q2, q3⟩, h3, h4, h5, h6⟩ := h
  refine ⟨h1, ⟨q1, q2, fun _ => q3 (.inl hs)⟩, ?_, ?_, ?_, ?_⟩
  · cases ha : atOrBeyond dir height ((cue.target : Int) * 1000) <;> cases hh : cue.source.holdSource <;>
      simp [Group.TimersOk, Group.begin, ha, hh]
  · cases ha : atOrBeyond dir height ((cue.target : Int) * 1000) <;>
      simp_all [Group.MoveOk, Group.begin]
  · intro _ d hd' r hr st hst c hc'
    have e1 : d = dir := Option.some.inj (hd'.symm.trans hd)
    have e2 : c = cue := Option.some.inj (hc'.symm.trans hc)
    have e3 : st = height := (Option.some.inj hst).symm
    have e4 : (if atOrBeyond dir height ((cue.target : Int) * 1000) then (cue.target : Int) * 1000 else height) = r :=
      Option.some.inj hr
    subst e1 e2 e3
    show if atOrBeyond d st ((c.target : Int) * 1000) = true then r = (c.target : Int) * 1000 else _
    rw [← e4]
    cases ha : atOrBeyond d st ((c.target : Int) * 1000)
    · exact ⟨strictlyAhead_of_short ha, atOrBeyond_self d st⟩
    · rfl
  · simp_all [Group.FaultOk, Group.begin]

/-- Every transition keeps the laws of the record. -/
theorem Group.Event.ok (e : g.Event g') (h : g.Ok k) : g'.Ok k := by
  cases e with
  | stop cause slot value hs => exact h.beginStop hs cause slot value
  | complete hs => exact h.completeStop hs
  | fault c slot value hs => exact h.fault hs c slot value
  | post c i value hs => exact h.post hs c i value
  | holdLost => exact h
  | estopped hs => exact h.estopped hs
  | start cue dir height hs hc hd => exact h.begin hs hc hd height
  | arrive hs => exact h.arrive hs
  | settle hs => exact h.settle hs
  | countRound hs hr => exact h.countRound hs hr
  | stopExpiry i hs => exact h.stopExpiry hs i

end Laws

end Sys2Proof.Machine

/-! ## The steps of GENG on the whole state

Every event that GENG takes is a chain of the steps below. -/

namespace Sys2Proof.Machine

/-- A transition that leaves the group's state, or takes it to rest from a state in which no member moves. -/
def Group.Settles (g g' : Group) : Prop :=
  g'.state = g.state ∧ g'.arrived = g.arrived ∨ g.state ≠ .moving ∧ (g'.state = .idle ∨ g'.state = .faulted)

/-- One step of GENG: it writes one group record, or one record with its members' motion. -/
inductive State.Geng (s : State) : State → Prop
  | write (k : GroupId) (g : Group) : (s.group k).Event g → (s.group k).Settles g → s.Geng (s.withGroup k g)
  | stop (k : GroupId) (cause : StopCause) (slot : Option Slot) (value : Option Int) : (s.group k).state = .moving →
      s.Geng (s.enterStopping k cause slot value)
  | start (k : GroupId) : (s.group k).state = .armed → s.Geng (s.startMove k)
  | arrive (k : GroupId) : (s.group k).state = .moving → s.allLanded k = true →
      s.Geng ((s.modGroup k Group.arrive).modMembers k Hoist.arrive)

/-- A chain of GENG's steps. -/
abbrev State.GengChain : State → State → Prop := Relation.ReflTransGen State.Geng

namespace State.GengChain

theorem foldl {α : Type} (f : State → α → State) (h : ∀ (t : State) (a : α), t.GengChain (f t a)) (l : List α)
    (s : State) : s.GengChain (l.foldl f s) := by
  induction l generalizing s with
  | nil => exact .refl
  | cons a l ih => exact (h s a).trans (ih _)

theorem modGroup {s : State} {k : GroupId} {f : Group → Group} (he : (s.group k).Event (f (s.group k)))
    (hs : (s.group k).Settles (f (s.group k))) : s.GengChain (s.modGroup k f) := .single (.write k _ he hs)

end State.GengChain

section Chains
variable (s : State) (k : GroupId)

theorem Group.completeStop_settles {g : Group} (hs : g.state = .stopping) : g.Settles g.completeStop := by
  refine .inr ⟨by simp [hs], ?_⟩
  unfold Group.completeStop
  dsimp only
  split <;> simp

theorem State.testStop_chain : s.GengChain (s.testStop k) := by
  rcases s.testStop_cases k with ⟨h, hs, -⟩ | ⟨h, -⟩
  · rw [h]
    exact .modGroup (.complete _ hs) (Group.completeStop_settles hs)
  · rw [h]

theorem State.fault_chain (hs : (s.group k).state = .armed ∨ (s.group k).state = .settling) (c : Cond)
    (slot : Option Slot) (value : Option Int) : s.GengChain (s.modGroup k fun g => g.fault c slot value) :=
  .modGroup (.fault _ c slot value hs) (.inr ⟨by rcases hs with e | e <;> simp [e], .inr rfl⟩)

theorem Group.post_fields (g : Group) (c : Cond) (i : Slot) (value : Option Int) :
    (g.post c i value).state = g.state ∧ (g.post c i value).arrived = g.arrived := by
  unfold Group.post
  split <;> exact ⟨rfl, rfl⟩

theorem State.conditionEvent_chain (i : Slot) (c : Cond) (value : Option Int) :
    s.GengChain (s.conditionEvent k i c value) := by
  unfold State.conditionEvent
  split
  · next hs => exact .single (.stop k _ _ _ hs)
  · next hs => exact s.fault_chain k (.inl hs) ..
  · next hs => exact s.fault_chain k (.inr hs) ..
  · next hs => exact .modGroup (.post _ c i value hs) (.inl (Group.post_fields ..))
  all_goals exact .refl

theorem State.lossEvent_chain (i : Slot) (value : Option Int) : s.GengChain (s.lossEvent k i value) := by
  unfold State.lossEvent
  split
  · exact s.testStop_chain k
  · exact s.conditionEvent_chain k ..

theorem State.loseHold_chain (hs : (s.group k).state = .moving) : s.GengChain (s.loseHold k) :=
  .tail (.single (.stop k .holdLost none none hs)) (.write k _ (.holdLost _) (.inl ⟨rfl, rfl⟩))

theorem State.estopGroup_chain : s.GengChain (s.estopGroup k) := by
  unfold State.estopGroup
  split
  · next hs => exact .single (.stop k _ _ _ hs)
  · next hs => exact s.fault_chain k (.inl hs) ..
  · next hs => exact s.fault_chain k (.inr hs) ..
  · next hs =>
    split
    · exact .refl
    · exact .modGroup (.estopped _ hs) (.inl ⟨rfl, rfl⟩)
  all_goals exact .refl

theorem State.estopGroups_chain : s.GengChain s.estopGroups := .foldl _ State.estopGroup_chain _ s

theorem State.startMove_chain : s.GengChain (s.startMove k) := by
  by_cases hs : (s.group k).state = .armed
  · exact .single (.start k hs)
  · rw [State.startMove_of_ne hs]

theorem State.startAll_chain (src : StartSource) : s.GengChain (s.startAll src) := by
  refine .foldl _ (fun t k => ?_) _ s
  split
  · exact t.startMove_chain k
  · exact .refl

theorem State.settleRound_chain : s.GengChain (s.settleRound k) := by
  unfold State.settleRound
  split
  · next hs =>
    split
    · refine Relation.ReflTransGen.trans (.single (.write k _ (.settle _ hs) (.inr ⟨by simp [hs], .inl rfl⟩)))
        (State.startAll_chain ..)
    · next hr => exact .single (.write k _ (.countRound _ hs hr) (.inl ⟨rfl, rfl⟩))
  · exact .refl

theorem State.settleRounds_chain : s.GengChain s.settleRounds := .foldl _ State.settleRound_chain _ s

theorem State.landedEvent_chain : s.GengChain (s.landedEvent k) := by
  unfold State.landedEvent
  split
  · next h =>
    have ht : s.GengChain ((s.modGroup k Group.arrive).modMembers k Hoist.arrive) := .single (.arrive k h.1 h.2.2)
    dsimp only
    split
    · exact ht.trans (State.startAll_chain ..)
    · exact ht
  · exact .refl

theorem State.takeEvents_chain (e : MemberEvents) : s.GengChain (s.takeEvents e) := by
  unfold State.takeEvents
  have h : s.GengChain (match e.condition with
      | some (c, value) => s.conditionEvent e.group e.slot c value
      | none => s) := by
    split
    · exact s.conditionEvent_chain ..
    · exact .refl
  dsimp only
  split
  · exact h.trans (State.landedEvent_chain ..)
  · exact h

theorem State.landingExpiry_chain (hs : (s.group k).state = .moving) : s.GengChain (s.landingExpiry k) :=
  .single (.stop k _ _ _ hs)

theorem State.stopExpiry_chain (hs : (s.group k).state = .stopping) : s.GengChain (s.stopExpiry k) :=
  .single (.write k _ (.stopExpiry _ _ hs) (.inr ⟨by simp [hs], .inr rfl⟩))

theorem State.handCondition_chain (i : Slot) : s.GengChain (s.handCondition i) := by
  unfold State.handCondition
  split
  · exact .refl
  · split
    · exact .refl
    · split
      · exact .refl
      · exact s.conditionEvent_chain ..

theorem State.handLanded_chain (k : Option GroupId) (before after : Bool) :
    s.GengChain (s.handLanded k before after) := by
  unfold State.handLanded
  split
  · split
    · exact s.landedEvent_chain _
    · exact .refl
  · exact .refl

theorem State.handStopped_chain (k : Option GroupId) (stopped : Bool) : s.GengChain (s.handStopped k stopped) := by
  unfold State.handStopped
  split
  · split
    · exact s.testStop_chain _
    · exact .refl
  · exact .refl

end Chains

/-! ### What a step of GENG does to each group -/

section Steps
variable {s t : State}

/-- Every group record goes through transitions of its own. -/
theorem State.Geng.events (h : s.Geng t) (j : GroupId) : Relation.ReflTransGen Group.Event (s.group j) (t.group j) := by
  cases h with
  | write k g he _ =>
    rw [State.group_withGroup]
    split
    · next e => subst e; exact .single he
    · exact .refl
  | stop k cause slot value hs =>
    by_cases hk : k = j
    · subst hk
      rw [State.group_enterStopping_self]
      have h1 : Relation.ReflTransGen Group.Event (s.group k) ((s.group k).beginStop cause slot value) :=
        .single (.stop _ cause slot value hs)
      split
      · exact h1.tail (.complete _ rfl)
      · exact h1
    · rw [State.group_enterStopping_ne _ hk]
  | start k hs =>
    rcases s.startMove_cases k with h | ⟨cue, dir, -, hc, hd, h⟩ <;> rw [h]
    rw [State.group_modMembers, State.group_modGroup]
    split
    · next e => subst e; exact .single (.start _ cue dir _ hs hc hd)
    · exact .refl
  | arrive k hs _ =>
    rw [State.group_modMembers, State.group_modGroup]
    split
    · next e => subst e; exact .single (.arrive _ hs)
    · exact .refl

theorem State.GengChain.events (h : s.GengChain t) (j : GroupId) :
    Relation.ReflTransGen Group.Event (s.group j) (t.group j) := by
  induction h with
  | refl => exact .refl
  | tail _ h ih => exact ih.trans (h.events j)

theorem Group.Events.ok {g g' : Group} {k : GroupId} (h : Relation.ReflTransGen Group.Event g g') (hg : g.Ok k) :
    g'.Ok k := by
  induction h with
  | refl => exact hg
  | tail _ e ih => exact e.ok ih

/-- GENG's steps keep the laws of the group records. -/
theorem State.GengChain.groupsOk (h : s.GengChain t) (hs : s.GroupsOk) : t.GroupsOk := fun k =>
  Group.Events.ok (h.events k) (hs k)

/-- No transition takes a group away from rest, further from it, or to GST_EMPTY and back. -/
def GroupState.Onward (a b : GroupState) : Prop := a = b ∨ b.rank < a.rank ∧ b ≠ .empty

theorem GroupState.Onward.trans {a b c : GroupState} (h : a.Onward b) (h' : b.Onward c) : a.Onward c := by
  rcases h with rfl | ⟨h1, h2⟩
  · exact h'
  · rcases h' with rfl | ⟨h3, h4⟩
    · exact .inr ⟨h1, h2⟩
    · exact .inr ⟨h3.trans h1, h4⟩

theorem Group.Event.onward {g g' : Group} (e : g.Event g') : g.state.Onward g'.state := by
  cases e with
  | stop cause slot value hs => exact .inr (by simp [hs, Group.beginStop, GroupState.rank])
  | complete hs =>
    rcases (Group.completeStop_settles hs) with ⟨e, -⟩ | ⟨-, e | e⟩
    · exact .inl e.symm
    · exact .inr (by simp [hs, e, GroupState.rank])
    · exact .inr (by simp [hs, e, GroupState.rank])
  | fault c slot value hs => rcases hs with hs | hs <;> exact .inr (by simp [hs, Group.fault, GroupState.rank])
  | post c i value hs => exact .inl (g.post_fields ..).1.symm
  | holdLost => exact .inl rfl
  | estopped hs => exact .inl rfl
  | start cue dir height hs hc hd => exact .inr (by simp [hs, Group.begin, GroupState.rank])
  | arrive hs =>
    refine .inr ?_
    unfold Group.arrive
    split <;> simp [hs, GroupState.rank]
  | settle hs => exact .inr (by simp [hs, GroupState.rank])
  | countRound hs hr => exact .inl rfl
  | stopExpiry i hs => exact .inr (by simp [hs, GroupState.rank])

theorem Group.Events.onward {g g' : Group} (h : Relation.ReflTransGen Group.Event g g') : g.state.Onward g'.state := by
  induction h with
  | refl => exact .inl rfl
  | tail _ e ih => exact ih.trans e.onward

theorem State.GengChain.onward (h : s.GengChain t) (k : GroupId) : (s.group k).state.Onward (t.group k).state :=
  Group.Events.onward (h.events k)

theorem GroupState.Onward.empty_iff {a b : GroupState} (h : a.Onward b) : b = .empty ↔ a = .empty := by
  rcases h with rfl | ⟨h1, h2⟩
  · rfl
  · refine ⟨fun e => absurd e h2, ?_⟩
    rintro rfl
    exact absurd h1 (Nat.not_lt_zero _)

/-- No group is armed or moving. -/
def State.Unmoving (s : State) : Prop := ∀ k, (s.group k).state ≠ .armed ∧ (s.group k).state ≠ .moving

theorem State.Unmoving.chain (hs : s.Unmoving) (h : s.GengChain t) : t.Unmoving := fun k => by
  have ho := h.onward k
  obtain ⟨h1, h2⟩ := hs k
  rcases ho with e | ⟨hr, -⟩
  · rw [← e]; exact ⟨h1, h2⟩
  · constructor <;> intro e <;> rw [e] at hr <;> cases h' : (s.group k).state <;> simp_all [GroupState.rank]

/-! ### What it leaves of everything else -/

theorem State.Geng.work (h : s.Geng t) : s.GroupWork t := by
  cases h with
  | write k g he _ =>
    have := State.GroupWork.modGroup s k (f := fun g' => { g with members := g'.members }) fun _ => rfl
    have e : s.withGroup k g = s.modGroup k (fun g' => { g with members := g'.members }) := by
      rw [State.modGroup_eq, ← he.members]
    rw [e]; exact this
  | stop k cause slot value _ => exact s.enterStopping_work ..
  | start k _ => exact s.startMove_work k
  | arrive k _ _ => exact (State.GroupWork.modGroup s k Group.members_arrive).trans (.modMembers _ k Hoist.arrive_cases)

theorem State.GengChain.work (h : s.GengChain t) : s.GroupWork t := by
  induction h with
  | refl => exact .refl s
  | tail _ h ih => exact ih.trans h.work

/-- The member sets stay those of R31. -/
theorem State.GengChain.membersOk (h : s.GengChain t) (hs : s.MembersOk) : t.MembersOk := fun k => by
  obtain ⟨hm, he⟩ := hs k
  have hn : t.naming k = s.naming k := by
    unfold State.naming
    congr 1
    funext i
    have := h.work.toMoves.map_record (fun h => h.group) (fun _ _ => Hoist.Motion.group) i
    have e : ∀ o : Option Hoist, o.bind (·.group) = (o.map (·.group)).join := fun o => by cases o <;> rfl
    rw [e, e, this]
  rw [hn, h.work.members, (h.onward k).empty_iff]
  exact ⟨hm, he⟩

end Steps

end Sys2Proof.Machine

/-! ## The rig: records, groups and members together

`State.RigBut p` is what the invariant says of the two tables, of the jog and of the power in a record, with the members'
states claimed for the groups in `p` only: between two parts of one event a single group can be out of step with its
members. -/

namespace Sys2Proof.Machine

/-- The tables obey the invariant's laws; the members of the groups in `p` are in step with them. -/
structure State.RigBut (s : State) (p : GroupId → Prop) : Prop where
  records : s.RecordsOk
  members : s.MembersOk
  groups : s.GroupsOk
  memberStates : ∀ k, p k → s.MemberStatesOk k
  grouped : ∀ i, ∀ h ∈ s.record i, h.state = .moving → h.group.isSome
  estop : s.safety.estopAsserted = true → s.safety.permit = false
  powerless : s.safety.permit = false → ∀ i, ∀ h ∈ s.record i, h.demand = 0 ∧ h.state ≠ .jogging
  jog : s.JogOk

/-- The whole rig. -/
abbrev State.Rig (s : State) : Prop := s.RigBut fun _ => True

variable {s t : State} {k : GroupId}

theorem State.Rig.but (hs : s.Rig) (p : GroupId → Prop) : s.RigBut p :=
  { hs with memberStates := fun k _ => hs.memberStates k trivial }

/-- With the one group back in step the rig is whole. -/
theorem State.RigBut.whole (hs : s.RigBut (· ≠ k)) (hk : s.MemberStatesOk k) : s.Rig :=
  { hs with memberStates := fun j _ => if h : j = k then h ▸ hk else hs.memberStates j h }

/-! ### Members -/

/-- A member of a group is a slot whose record names it. -/
theorem State.MembersOk.mem_iff (hs : s.MembersOk) (k : GroupId) (i : Slot) :
    i ∈ (s.group k).members ↔ ∃ h, s.record i = some h ∧ h.group = some k := by
  rw [(hs k).1, State.mem_naming]
  cases s.record i <;> simp

/-- A group that is not GST_EMPTY has a member. -/
theorem State.MembersOk.nonempty (hs : s.MembersOk) (hk : (s.group k).state ≠ .empty) :
    ∃ i h, i ∈ (s.group k).members ∧ s.record i = some h := by
  have hm : (s.group k).members ≠ [] := fun e => hk ((hs k).2.2 e)
  obtain ⟨i, hi⟩ := List.exists_mem_of_ne_nil _ hm
  obtain ⟨h, hh, -⟩ := (hs.mem_iff k i).1 hi
  exact ⟨i, h, hi, hh⟩

/-- Members whose state, landing and known height are as they were leave their group in step with them. -/
theorem State.MemberStatesOk.congr (hs : s.MemberStatesOk k) (hst : (t.group k).state = (s.group k).state)
    (ha : (t.group k).arrived = (s.group k).arrived) (hm : (t.group k).members = (s.group k).members)
    (hr : ∀ i ∈ (s.group k).members, t.record i = s.record i ∨ ∃ h r, s.record i = some h ∧ t.record i = some r ∧
      r.state = h.state ∧ r.landed = h.landed ∧ (h.height.isSome = true → r.height.isSome = true))
    (hw : s.LandedWaits k → t.LandedWaits k) : t.MemberStatesOk k := by
  have every : ∀ {p : Hoist → Prop}, (∀ h r : Hoist, r.state = h.state → r.landed = h.landed →
      (h.height.isSome = true → r.height.isSome = true) → p h → p r) → s.EveryMember k p → t.EveryMember k p := by
    intro p hp hk i hi r hri
    rw [hm] at hi
    rcases hr i hi with e | ⟨h, r', hh, hr', e1, e2, e3⟩
    · exact hk i hi r (e ▸ hri)
    · cases hr'.symm.trans hri
      exact hp h r e1 e2 e3 (hk i hi h hh)
  have someOf : ∀ {p : Hoist → Prop}, (∀ h r : Hoist, r.state = h.state → r.landed = h.landed → p h → p r) →
      s.SomeMember k p → t.SomeMember k p := by
    rintro p hp ⟨i, hi, h, hh, hph⟩
    rcases hr i hi with e | ⟨h', r, hh', hr', e1, e2, e3⟩
    · exact ⟨i, hm ▸ hi, h, e.trans hh, hph⟩
    · cases hh'.symm.trans hh
      exact ⟨i, hm ▸ hi, r, hr', hp h r e1 e2 hph⟩
  unfold State.MemberStatesOk at hs ⊢
  rw [hst, ha]
  cases hk : (s.group k).state with
  | empty => trivial
  | armed =>
    rw [hk] at hs
    exact every (fun h r e1 _ e3 hp => ⟨e1 ▸ hp.1, e3 hp.2⟩) hs
  | settling =>
    rw [hk] at hs
    exact every (fun h r e1 _ _ hp => e1 ▸ hp) hs
  | moving =>
    rw [hk] at hs
    refine ⟨every (fun h r e1 _ _ hp => e1 ▸ hp) hs.1, ?_⟩
    split
    · next harr =>
      have h2 := hs.2
      rw [if_pos harr] at h2
      exact h2.imp (someOf fun h r _ e2 hp => e2 ▸ hp) hw
    · next harr =>
      have h2 := hs.2
      rw [if_neg harr] at h2
      exact every (fun h r _ e2 _ hp => e2 ▸ hp) h2
  | stopping =>
    rw [hk] at hs
    exact ⟨every (fun h r e1 _ _ hp => by rw [e1]; exact hp) hs.1, someOf (fun h r e1 _ hp => e1 ▸ hp) hs.2⟩
  | idle =>
    rw [hk] at hs
    exact every (fun h r e1 _ _ hp => by rw [e1]; exact hp) hs
  | faulted =>
    rw [hk] at hs
    exact every (fun h r e1 _ _ hp => by rw [e1]; exact hp) hs

/-- The members of a group in step with it, but for what the group waits for: a landing, or a member at rest. -/
def State.MembersFit (s : State) (k : GroupId) : Prop :=
  match (s.group k).state with
  | .empty => True
  | .armed => s.EveryMember k fun h => h.state = .ready ∧ h.height.isSome = true
  | .settling => s.EveryMember k fun h => h.state = .ready
  | .moving => s.EveryMember k fun h => h.state = .moving ∧ ((s.group k).arrived = false → h.landed = false)
  | .stopping => s.EveryMember k fun h => h.state = .ready ∨ h.state = .stopping ∨ h.state = .lost
  | .idle | .faulted => s.EveryMember k fun h => h.state ≠ .moving

theorem State.MemberStatesOk.fit (hs : s.MemberStatesOk k) : s.MembersFit k := by
  unfold State.MemberStatesOk at hs
  unfold State.MembersFit
  cases hk : (s.group k).state <;> rw [hk] at hs
  case moving =>
    intro i hi h hh
    refine ⟨hs.1 i hi h hh, fun ha => ?_⟩
    have h2 := hs.2
    rw [if_neg (by simp [ha])] at h2
    exact h2 i hi h hh
  case stopping => exact hs.1
  all_goals exact hs

/-! ### The laws of a record under motion -/

/-- The states that a hoist goes through at work. -/
def HoistState.Working (st : HoistState) : Prop := st = .ready ∨ st = .moving ∨ st = .jogging ∨ st = .stopping

section Records
variable {h r : Hoist} {n : Nat}

/-- A change of the motion fields between working states keeps the laws, if it keeps those of the motion. -/
theorem Hoist.Ok.working (ho : h.Ok n)
    (hf : r = { h with
      state := r.state, demand := r.demand, direction := r.direction, deviation := r.deviation, landed := r.landed,
      baseline := r.baseline, jogStart := r.jogStart, jogDistance := r.jogDistance })
    (hh : h.state.Working) (hr : r.state.Working) (hp : r.state = .moving ∨ r.state = .jogging → h.height.isSome = true)
    (hm : r.MotionOk) : r.Ok n := by
  obtain ⟨config, ⟨load, speed, rated⟩, ⟨height, load', -⟩, -, ⟨wf, wf', lost, link, -⟩, ⟨misses, -, last, -⟩⟩ := ho
  obtain ⟨ha, hl⟩ : h.state ≠ .admitting ∧ h.state ≠ .lost := by rcases hh with e | e | e | e <;> simp [e]
  obtain ⟨ra, rl, rr⟩ : r.state ≠ .admitting ∧ r.state ≠ .lost ∧ r.state ≠ .retiring := by
    rcases hr with e | e | e | e <;> simp [e]
  simp only [ha, hl, iff_false] at load speed lost
  rw [hf] at hm ⊢
  refine ⟨config, ⟨by simpa [ra] using load, by simpa [ra] using speed, rated⟩, ⟨height, load', hp⟩, hm,
    ⟨wf, wf', by simpa [rl] using lost, link, fun e => absurd e ra⟩, ⟨misses, fun e => absurd e rl, last, ?_⟩⟩
  rintro (e | e)
  · exact absurd e ra
  · exact absurd e rr

/-- The motion fields of a hoist without demand that neither moves nor jogs. -/
theorem Hoist.MotionOk.rest (hd : r.demand = 0) (hdir : r.direction = .none) (hdev : r.deviation = none)
    (hl : r.landed = false) (hj : r.jogStart = none) (hj' : r.jogDistance = none) (hs : r.state ≠ .jogging)
    (hb : ∀ b ∈ r.baseline, 20 ≤ b ∧ b ≤ 8190) : r.MotionOk := by
  simp only [Hoist.MotionOk, hd, hdir, hdev, hl, hj, hj', hs]
  simpa using hb

theorem Hoist.Ok.motion (ho : h.Ok n) : h.MotionOk := by
  obtain ⟨-, -, -, hm, -⟩ := ho
  exact hm

/-- Out of a jog a record holds no start and no distance of one. -/
theorem Hoist.Ok.noJog (ho : h.Ok n) (hs : h.state ≠ .jogging) : h.jogStart = none ∧ h.jogDistance = none := by
  obtain ⟨-, -, -, -, -, h1, h2, -⟩ := ho.motion
  simpa [hs] using And.intro h1 h2

theorem Hoist.Ok.baseline (ho : h.Ok n) : ∀ b ∈ h.baseline, 20 ≤ b ∧ b ≤ 8190 := by
  obtain ⟨-, -, -, -, -, -, -, -, -, hb⟩ := ho.motion
  exact hb

theorem Hoist.Ok.height (ho : h.Ok n) (hs : h.state = .moving ∨ h.state = .jogging) : h.height.isSome = true := by
  obtain ⟨-, -, ⟨-, -, hh⟩, -⟩ := ho
  exact hh hs

theorem Hoist.Ok.stop (ho : h.Ok n) : h.stop.Ok n := by
  unfold Hoist.stop
  split
  · next hs =>
    obtain ⟨j1, j2⟩ := ho.noJog (by simp [hs])
    exact ho.working rfl (.inr (.inl hs)) (.inr (.inr (.inr rfl))) (by simp)
      (.rest rfl rfl rfl rfl j1 j2 (by simp) ho.baseline)
  · exact ho

theorem Hoist.Ok.arrive (ho : h.Ok n) : h.arrive.Ok n := by
  unfold Hoist.arrive
  split
  · next hs =>
    obtain ⟨j1, j2⟩ := ho.noJog (by simp [hs])
    exact ho.working rfl (.inr (.inl hs)) (.inl rfl) (by simp) (.rest rfl rfl rfl rfl j1 j2 (by simp) ho.baseline)
  · exact ho

theorem Hoist.Ok.startMove (ho : h.Ok n) (hh : h.height.isSome = true) : h.startMove.Ok n := by
  unfold Hoist.startMove
  split
  · next hs =>
    obtain ⟨j1, j2⟩ := ho.noJog (by simp [hs])
    refine ho.working (by dsimp only) (.inl hs) (.inr (.inl rfl)) (fun _ => hh) ?_
    simp only [Hoist.MotionOk]
    simp [j1, j2]
  · exact ho

end Records

/-! ### GENG's steps keep the rig -/

/-- A chain of GENG's steps that changes one group, and its members by motion alone. -/
theorem State.RigBut.chain (hs : s.RigBut (· ≠ k)) (hc : s.GengChain t) (hg : ∀ j, j ≠ k → t.group j = s.group j)
    (hr : ∀ i, t.record i = s.record i ∨ ∃ h r, s.record i = some h ∧ t.record i = some r ∧ h.group = some k ∧
      h.Motion r ∧ r.demand = 0 ∧ (h.Ok s.link.lossThreshold → r.Ok s.link.lossThreshold)) : t.RigBut (· ≠ k) := by
  have ht := hc.work.tables
  have hmem := hc.membersOk hs.members
  refine ⟨fun i r hir => ?_, hmem, hc.groupsOk hs.groups, fun j hj => ?_, fun i r hir hm => ?_, ?_, fun hp i r hir => ?_, ?_⟩
  · rw [ht.link]
    rcases hr i with e | ⟨h, r', hh, hr', -, -, -, ho⟩
    · exact hs.records i r (e ▸ hir)
    · cases hr'.symm.trans hir
      exact ho (hs.records i h hh)
  · refine (hs.memberStates j hj).congr (by rw [hg j hj]) (by rw [hg j hj]) (by rw [hg j hj]) (fun i hi => ?_) fun w => ?_
    · rcases hr i with e | ⟨h, r', hh, -, hk, -⟩
      · exact .inl e
      · obtain ⟨h', hh', hj'⟩ := (hs.members.mem_iff j i).1 hi
        cases hh.symm.trans hh'
        exact absurd (Option.some.inj (hj'.symm.trans hk)) hj
    · unfold State.LandedWaits
      rw [ht.eventsWaiting]
      exact w
  · rcases hr i with e | ⟨h, r', hh, hr', hk, hmo, -⟩
    · exact hs.grouped i r (e ▸ hir) hm
    · cases hr'.symm.trans hir
      rw [hmo.group, hk]
      rfl
  · rw [ht.safety]
    exact hs.estop
  · rw [ht.safety] at hp
    rcases hr i with e | ⟨h, r', hh, hr', hk, hmo, hd, -⟩
    · exact hs.powerless hp i r (e ▸ hir)
    · cases hr'.symm.trans hir
      exact ⟨hd, by rcases hmo.after with e | e | e <;> simp [e]⟩
  · refine ⟨fun i => ?_, by rw [ht.safety]; exact hs.jog.2⟩
    rw [ht.safety, ← hs.jog.1 i]
    rcases hr i with e | ⟨h, r', hh, hr', hk, hmo, -⟩
    · rw [State.hoistState, e]
      rfl
    · simp only [State.hoistState, hh, hr', Option.map_some, Option.some.injEq]
      have h1 : r'.state ≠ .jogging := by rcases hmo.after with e | e | e <;> simp [e]
      have h2 : h.state ≠ .jogging := by rcases hmo.before with e | e <;> simp [e]
      simp [h1, h2]

end Sys2Proof.Machine

/-! ## GENG's steps keep the rig -/

namespace Sys2Proof.Machine

variable {s t : State} {k : GroupId}

/-- Motion as a group gives it to its members: without demand, and within the laws of the record. -/
def Hoist.Led (n : Nat) (h r : Hoist) : Prop := r = h ∨ h.Motion r ∧ r.demand = 0 ∧ (h.Ok n → r.Ok n)

theorem Hoist.stop_led (n : Nat) (h : Hoist) : h.Led n h.stop := by
  by_cases hs : h.state = .moving
  · exact .inr ⟨Hoist.stop_motion hs, by simp [Hoist.stop, hs], Hoist.Ok.stop⟩
  · exact .inl (Hoist.stop_of_ne hs)

theorem Hoist.arrive_led (n : Nat) (h : Hoist) : h.Led n h.arrive := by
  by_cases hs : h.state = .moving
  · exact .inr ⟨Hoist.arrive_motion hs, by simp [Hoist.arrive, hs], Hoist.Ok.arrive⟩
  · exact .inl (by simp [Hoist.arrive, hs])

theorem Hoist.startMove_led (n : Nat) {h : Hoist} (hh : h.height.isSome = true) : h.Led n h.startMove := by
  by_cases hs : h.state = .ready
  · exact .inr ⟨Hoist.startMove_motion hs, by simp [Hoist.startMove, hs], fun ho => ho.startMove hh⟩
  · exact .inl (by simp [Hoist.startMove, hs])

/-- A chain of GENG's steps that changes one group and leads its members. -/
theorem State.RigBut.lead (hs : s.RigBut (· ≠ k)) (hc : s.GengChain t) (hg : ∀ j, j ≠ k → t.group j = s.group j)
    {f : Hoist → Hoist} (hf : ∀ i ∈ (s.group k).members, ∀ h ∈ s.record i, h.Led s.link.lossThreshold (f h))
    (hr : ∀ i, t.record i = if i ∈ (s.group k).members then (s.record i).map f else s.record i) :
    t.RigBut (· ≠ k) := by
  refine hs.chain hc hg fun i => ?_
  rw [hr]
  split
  · next hi =>
    obtain ⟨h, hh, hk⟩ := (hs.members.mem_iff k i).1 hi
    rw [hh, Option.map_some]
    rcases hf i hi h hh with e | ⟨hm, hd, ho⟩
    · exact .inl (congrArg some e)
    · exact .inr ⟨h, f h, rfl, rfl, hk, hm, hd, ho⟩
  · exact .inl rfl

/-! ### One group's record alone -/

/-- A group record that is written without its members leaves the rest of the rig. -/
theorem State.RigBut.write (hs : s.RigBut (· ≠ k)) {g : Group} (he : (s.group k).Event g) (hst : (s.group k).Settles g) :
    (s.withGroup k g).RigBut (· ≠ k) :=
  hs.chain (.single (.write k g he hst)) (fun j hj => by rw [State.group_withGroup, if_neg hj.symm]) fun _ => .inl rfl

/-- A group that comes to rest with no moving member is in step with its members. -/
theorem State.memberStates_settled {g : Group} (hm : g.members = (s.group k).members)
    (hst : g.state = .idle ∨ g.state = .faulted)
    (hk : s.EveryMember k fun h => h.state ≠ .moving) : (s.withGroup k g).MemberStatesOk k := by
  have he : (s.withGroup k g).EveryMember k fun h => h.state ≠ .moving := by
    intro i hi
    rw [State.group_withGroup_self, hm] at hi
    exact hk i hi
  unfold State.MemberStatesOk
  rcases hst with e | e <;> simp only [State.group_withGroup_self, e] <;> exact he

/-- A group record written in step with its members. -/
theorem State.Rig.write (hs : s.Rig) {g : Group} (he : (s.group k).Event g) (hst : (s.group k).Settles g) :
    (s.withGroup k g).Rig := by
  refine ((hs.but _).write he hst).whole ?_
  rcases hst with ⟨e1, e2⟩ | ⟨hne, hst⟩
  · exact (hs.memberStates k trivial).congr (by simpa using e1) (by simpa using e2) (by simpa using he.members)
      (fun i _ => .inl rfl) id
  · refine State.memberStates_settled he.members hst fun i hi h hh => ?_
    have hf := (hs.memberStates k trivial).fit
    unfold State.MembersFit at hf
    cases hk : (s.group k).state <;> rw [hk] at hf
    case empty =>
      have := (hs.members k).2.1 hk
      rw [this] at hi
      cases hi
    case moving => exact absurd hk hne
    case armed => simp [(hf i hi h hh).1]
    case settling => simp [hf i hi h hh]
    case stopping => rcases hf i hi h hh with e | e | e <;> simp [e]
    all_goals exact hf i hi h hh

/-! ### Stops (R112, R113) -/

/-- A stopping group tests for completion: where the test fails a member is still stopping. -/
theorem State.memberStates_testStop (hk : (s.group k).state = .stopping)
    (hm : s.EveryMember k fun h => h.state = .ready ∨ h.state = .stopping ∨ h.state = .lost) :
    (s.testStop k).MemberStatesOk k := by
  rcases s.testStop_cases k with ⟨e, -, hrest⟩ | ⟨e, hrest⟩
  · rw [e]
    rcases Group.completeStop_settles hk with ⟨hst, -⟩ | ⟨-, hst⟩
    · exact absurd hst (by rw [hk]; unfold Group.completeStop; dsimp only; split <;> simp)
    · refine State.memberStates_settled (g := (s.group k).completeStop) rfl hst fun i hi h hh => ?_
      rcases hm i hi h hh with e | e | e <;> simp [e]
  · rw [e]
    unfold State.MemberStatesOk
    rw [hk]
    refine ⟨hm, ?_⟩
    have hfalse : s.allAtRest k = false := by
      cases h : s.allAtRest k with
      | false => rfl
      | true => exact absurd ⟨hk, h⟩ hrest
    obtain ⟨i, hi, h, hh, h1, h2⟩ := (s.allAtRest_false k).1 hfalse
    refine ⟨i, hi, h, hh, ?_⟩
    rcases hm i hi h hh with e | e | e
    · exact absurd e h1
    · exact e
    · exact absurd e h2

/-- A group whose members have all but come to rest. -/
theorem State.RigBut.testStop (hs : s.RigBut (· ≠ k)) (hk : (s.group k).state = .stopping)
    (hm : s.EveryMember k fun h => h.state = .ready ∨ h.state = .stopping ∨ h.state = .lost) : (s.testStop k).Rig :=
  (hs.chain (s.testStop_chain k) (fun _ hj => s.group_testStop_ne hj.symm) fun i => .inl (by
    rw [State.record, State.slot_testStop]; rfl)).whole (State.memberStates_testStop hk hm)

theorem State.record_enterStopping (s : State) (k : GroupId) (cause : StopCause) (slot : Option Slot) (value : Option Int)
    (i : Slot) : (s.enterStopping k cause slot value).record i =
      if i ∈ (s.group k).members then (s.record i).map Hoist.stop else s.record i := by
  rw [State.record, State.slot_enterStopping]
  split <;> rfl

/-- A moving group stops, whichever of its members has stopped moving already. -/
theorem State.RigBut.stop (hs : s.RigBut (· ≠ k)) (hk : (s.group k).state = .moving)
    (hm : s.EveryMember k fun h => h.state = .moving ∨ h.state = .ready ∨ h.state = .stopping ∨ h.state = .lost)
    (cause : StopCause) (slot : Option Slot) (value : Option Int) : (s.enterStopping k cause slot value).Rig := by
  refine (hs.lead (.single (.stop k cause slot value hk)) (fun _ hj => s.group_enterStopping_ne hj.symm ..)
    (fun _ _ h _ => Hoist.stop_led _ h) (s.record_enterStopping k cause slot value)).whole ?_
  unfold State.enterStopping
  refine State.memberStates_testStop (by simp [Group.beginStop]) fun i hi r hr => ?_
  rw [State.group_modMembers, State.group_modGroup_self] at hi
  have hi : i ∈ (s.group k).members := hi
  rw [State.record_modMembers, State.group_modGroup_self, State.record_modGroup] at hr
  have hr : (if i ∈ (s.group k).members then (s.record i).map Hoist.stop else s.record i) = some r := hr
  rw [if_pos hi] at hr
  obtain ⟨h, hh, rfl⟩ := Option.map_eq_some_iff.1 hr
  rcases hm i hi h hh with e | e | e | e
  · simp [Hoist.stop, e]
  all_goals rw [Hoist.stop_of_ne (by simp [e])]; simp [e]

theorem State.Rig.stop (hs : s.Rig) (hk : (s.group k).state = .moving) (cause : StopCause) (slot : Option Slot)
    (value : Option Int) : (s.enterStopping k cause slot value).Rig := by
  refine (hs.but _).stop hk (fun i hi h hh => .inl ?_) cause slot value
  have hf := (hs.memberStates k trivial).fit
  unfold State.MembersFit at hf
  rw [hk] at hf
  exact (hf i hi h hh).1

/-! ### Starts (R43, R44, R54 to R56) -/

theorem State.Rig.startMove (hs : s.Rig) (k : GroupId) : (s.startMove k).Rig := by
  rcases s.startMove_cases k with e | ⟨cue, dir, hk, -, -, e⟩
  · rw [e]; exact hs
  have hready : s.EveryMember k fun h => h.state = .ready ∧ h.height.isSome = true := by
    have hf := (hs.memberStates k trivial).fit
    unfold State.MembersFit at hf
    rw [hk] at hf
    exact hf
  have hrec : ∀ i, (s.startMove k).record i =
      if i ∈ (s.group k).members then (s.record i).map Hoist.startMove else s.record i := fun i => by
    rw [e, State.record_modMembers, State.group_modGroup_self, State.record_modGroup]
    rfl
  refine ((hs.but _).lead (.single (.start k hk)) (fun _ hj => s.group_startMove_ne hj.symm)
    (fun i hi h hh => Hoist.startMove_led _ (hready i hi h hh).2) hrec).whole ?_
  have hg : (s.startMove k).group k = (s.group k).begin cue dir (average (s.normalHeights k)) := by
    rw [e, State.group_modMembers, State.group_modGroup_self]
  have hmove : (s.startMove k).EveryMember k fun h => h.state = .moving ∧ h.landed = false := by
    intro i hi r hr
    rw [hg] at hi
    have hi : i ∈ (s.group k).members := hi
    rw [hrec, if_pos hi] at hr
    obtain ⟨h, hh, rfl⟩ := Option.map_eq_some_iff.1 hr
    simp [Hoist.startMove, (hready i hi h hh).1]
  unfold State.MemberStatesOk
  have hst : ((s.startMove k).group k).state = .moving := by rw [hg]; rfl
  rw [hst]
  refine ⟨fun i hi h hh => (hmove i hi h hh).1, ?_⟩
  split
  · obtain ⟨i, h, hi, hh⟩ := hs.members.nonempty (k := k) (by simp [hk])
    have hi' : i ∈ ((s.startMove k).group k).members := by rw [hg]; exact hi
    have hr : (s.startMove k).record i = some h.startMove := by rw [hrec, if_pos hi, hh]; rfl
    exact .inl ⟨i, hi', h.startMove, hr, (hmove i hi' _ hr).2⟩
  · exact fun i hi h hh => (hmove i hi h hh).2

/-! ### Arrival (R82, R83) -/

theorem State.allLanded_iff (s : State) (k : GroupId) :
    s.allLanded k = true ↔ ∀ i ∈ (s.group k).members, ∃ h, s.record i = some h ∧ h.state = .moving ∧ h.landed = true := by
  unfold State.allLanded
  rw [List.all_eq_true]
  refine forall₂_congr fun i _ => ?_
  cases s.record i <;> simp

/-- A moving group of which every member has landed arrives. -/
theorem State.RigBut.arrive (hs : s.RigBut (· ≠ k)) (hk : (s.group k).state = .moving) (hl : s.allLanded k = true) :
    ((s.modGroup k Group.arrive).modMembers k Hoist.arrive).Rig := by
  have hrec : ∀ i, ((s.modGroup k Group.arrive).modMembers k Hoist.arrive).record i =
      if i ∈ (s.group k).members then (s.record i).map Hoist.arrive else s.record i := fun i => by
    rw [State.record_modMembers, State.group_modGroup_self, State.record_modGroup, Group.members_arrive]
  refine (hs.lead (.single (.arrive k hk hl)) (fun j hj => ?_) (fun _ _ h _ => Hoist.arrive_led _ h) hrec).whole ?_
  · rw [State.group_modMembers, State.group_modGroup, if_neg hj.symm]
  have hready : ((s.modGroup k Group.arrive).modMembers k Hoist.arrive).EveryMember k fun h => h.state = .ready := by
    intro i hi r hr
    rw [State.group_modMembers, State.group_modGroup_self, Group.members_arrive] at hi
    rw [hrec, if_pos hi] at hr
    obtain ⟨h, hh, rfl⟩ := Option.map_eq_some_iff.1 hr
    obtain ⟨h', hh', hm, -⟩ := (s.allLanded_iff k).1 hl i hi
    cases hh.symm.trans hh'
    simp [Hoist.arrive, hm]
  have hst : (s.group k).arrive.state = .idle ∨ (s.group k).arrive.state = .settling := by
    unfold Group.arrive
    split <;> simp
  unfold State.MemberStatesOk
  rw [State.group_modMembers, State.group_modGroup_self]
  rcases hst with e | e <;> rw [e]
  · exact fun i hi h hh => by simp [hready i hi h hh]
  · exact hready

/-! ### Every chain -/

theorem State.Geng.rig (h : s.Geng t) (hs : s.Rig) : t.Rig := by
  cases h with
  | write k g he hst => exact hs.write he hst
  | stop k cause slot value hk => exact hs.stop hk cause slot value
  | start k _ => exact hs.startMove k
  | arrive k hk hl => exact (hs.but _).arrive hk hl

theorem State.GengChain.rig (h : s.GengChain t) (hs : s.Rig) : t.Rig := by
  induction h with
  | refl => exact hs
  | tail _ h ih => exact h.rig ih

end Sys2Proof.Machine

/-! ## Changes of single records, and the rig -/

namespace Sys2Proof.Machine

variable {s t : State} {k : GroupId} {i : Slot} {h r : Hoist} {e : SlotEntry}

/-- A change of slots that leaves every record in its group. -/
theorem State.RigBut.retable {p q : GroupId → Prop} (hs : s.RigBut p) (hgr : t.groups = s.groups)
    (hth : t.link.lossThreshold = s.link.lossThreshold)
    (hr : ∀ i, t.record i = s.record i ∨ ∃ h r, s.record i = some h ∧ t.record i = some r ∧ r.group = h.group ∧
      r.Ok s.link.lossThreshold ∧ (r.state = .moving → r.group.isSome))
    (hq : ∀ k, q k → t.MemberStatesOk k) (he : t.safety.estopAsserted = true → t.safety.permit = false)
    (hd : t.safety.permit = false → ∀ i, ∀ h ∈ t.record i, h.demand = 0 ∧ h.state ≠ .jogging) (hj : t.JogOk) :
    t.RigBut q := by
  have hg : ∀ k, t.group k = s.group k := fun k => by rw [State.group, hgr]; rfl
  refine ⟨fun i r hir => ?_, fun k => ?_, fun k => hg k ▸ hs.groups k, hq, fun i r hir hm => ?_, he, hd, hj⟩
  · rw [hth]
    rcases hr i with e | ⟨h, r', -, hr', -, ho, -⟩
    · exact hs.records i r (e ▸ hir)
    · cases hr'.symm.trans hir
      exact ho
  · have hn : t.naming k = s.naming k := by
      unfold State.naming
      congr 1
      funext i
      rcases hr i with e | ⟨h, r, hh, hr', eg, -⟩
      · rw [e]
      · rw [hh, hr', Option.bind_some, Option.bind_some, eg]
    rw [hg, hn]
    exact hs.members k
  · rcases hr i with e | ⟨h, r', -, hr', -, -, hgr⟩
    · exact hs.grouped i r (e ▸ hir) hm
    · cases hr'.symm.trans hir
      exact hgr hm

/-- A state with the same tables, its lines within the same laws. -/
theorem State.RigBut.of_tables {p : GroupId → Prop} (hs : s.RigBut p) (hsl : t.slots = s.slots) (hgr : t.groups = s.groups)
    (hth : t.link.lossThreshold = s.link.lossThreshold) (hw : ∀ k, p k → s.LandedWaits k → t.LandedWaits k)
    (he : t.safety.estopAsserted = true → t.safety.permit = false)
    (hp : t.safety.permit = false → s.safety.permit = false) (hj : t.safety.jogSlot = s.safety.jogSlot)
    (hjt : t.safety.jogTimer.isSome = s.safety.jogTimer.isSome) : t.RigBut p := by
  have hrec : ∀ i, t.record i = s.record i := fun i => by rw [State.record, State.slot, hsl]; rfl
  have hg : ∀ k, t.group k = s.group k := fun k => by rw [State.group, hgr]; rfl
  refine hs.retable hgr hth (fun i => .inl (hrec i)) (fun k hk => ?_) he
      (fun h i v hv => hs.powerless (hp h) i v (hrec i ▸ hv))
    ⟨fun i => ?_, ?_⟩
  · exact (hs.memberStates k hk).congr (by rw [hg]) (by rw [hg]) (by rw [hg]) (fun i _ => .inl (hrec i)) (hw k hk)
  · rw [State.hoistState, hrec, hj]
    exact hs.jog.1 i
  · rw [hjt, hj]
    exact hs.jog.2

/-- A state with the same tables, the same lines and the same events. -/
theorem State.RigBut.of_eq {p : GroupId → Prop} (hs : s.RigBut p) (hsl : t.slots = s.slots) (hgr : t.groups = s.groups)
    (hth : t.link.lossThreshold = s.link.lossThreshold) (hev : t.eventsWaiting = s.eventsWaiting)
    (hsf : t.safety = s.safety) : t.RigBut p :=
  hs.of_tables hsl hgr hth (fun k _ => by unfold State.LandedWaits; rw [hev]; exact id) (by rw [hsf]; exact hs.estop)
    (by rw [hsf]; exact id) (by rw [hsf]) (by rw [hsf])

/-- One record changes; its group may be out of step with it. -/
theorem State.Rig.setRecord (hs : s.Rig) (hr : s.record i = some h) (he : e.record = some r) (hg : r.group = h.group)
    (ho : r.Ok s.link.lossThreshold) (hm : r.state = .moving → r.group.isSome = true)
    (hd : s.safety.permit = false → r.demand = 0) (hj : r.state = .jogging ↔ h.state = .jogging) :
    (s.setSlot i e).RigBut fun k => h.group ≠ some k := by
  have hrec : ∀ j, (s.setSlot i e).record j = if i = j then some r else s.record j := fun j => by
    rw [State.record_setSlot, he]
  refine hs.retable rfl rfl (fun j => ?_) (fun k hk => ?_) hs.estop (fun hp j v hv => ?_) ⟨fun j => ?_, hs.jog.2⟩
  · rw [hrec]
    split
    · next e => subst e; exact .inr ⟨h, r, hr, rfl, hg, ho, hm⟩
    · exact .inl rfl
  · refine (hs.memberStates k trivial).congr rfl rfl rfl (fun j hj' => .inl ?_) id
    rw [hrec, if_neg]
    rintro rfl
    obtain ⟨h', hh', hk'⟩ := (hs.members.mem_iff k i).1 hj'
    cases hr.symm.trans hh'
    exact hk hk'
  · rw [hrec] at hv
    split at hv
    · next e =>
      subst e
      cases hv
      refine ⟨hd hp, fun e => ?_⟩
      exact (hs.powerless hp i h hr).2 (hj.1 e)
    · exact hs.powerless hp j v hv
  · rw [State.hoistState, hrec]
    show _ ↔ s.safety.jogSlot = some j
    rw [← hs.jog.1 j, State.hoistState]
    split
    · next e => subst e; simp [hr, hj]
    · rfl

/-- The group that a record belongs to, or none. -/
theorem State.RigBut.of_group {hg : Option GroupId} (hs : s.RigBut fun k => hg ≠ some k)
    (hk : ∀ k, hg = some k → s.MemberStatesOk k) : s.Rig :=
  { hs with memberStates := fun k _ => if e : hg = some k then hk k e else hs.memberStates k e }

/-- A record changes that stays in its state, landed or not as it was, its height known if it was. -/
theorem State.Rig.setSame (hs : s.Rig) (hr : s.record i = some h) (he : e.record = some r) (hg : r.group = h.group)
    (ho : r.Ok s.link.lossThreshold) (hst : r.state = h.state) (hl : r.landed = h.landed)
    (hh : h.height.isSome = true → r.height.isSome = true) (hd : s.safety.permit = false → r.demand = 0) :
    (s.setSlot i e).Rig := by
  refine (hs.setRecord hr he hg ho (fun hm => ?_) hd (by rw [hst])).of_group fun k _ => ?_
  · rw [hg]
    exact hs.grouped i h hr (hst ▸ hm)
  · refine (hs.memberStates k trivial).congr rfl rfl rfl (fun j _ => ?_) id
    rw [State.record_setSlot]
    split
    · next e =>
      subst e
      exact .inr ⟨h, r, hr, he, hst, hl, hh⟩
    · exact .inl rfl

/-- A slot whose record stays as it is. -/
theorem State.Rig.setEntry (hs : s.Rig) (he : e.record = s.record i) : (s.setSlot i e).Rig := by
  have hrec : ∀ j, (s.setSlot i e).record j = s.record j := fun j => by
    rw [State.record_setSlot]
    split
    · next e => subst e; exact he
    · rfl
  refine hs.retable rfl rfl (fun j => .inl (hrec j)) (fun k _ => ?_) hs.estop (fun hp j v hv => ?_) ⟨fun j => ?_, hs.jog.2⟩
  · exact (hs.memberStates k trivial).congr rfl rfl rfl (fun j _ => .inl (hrec j)) id
  · exact hs.powerless hp j v (hrec j ▸ hv)
  · rw [State.hoistState, hrec]
    exact hs.jog.1 j

/-! ### A record in the group that it belongs to -/

/-- A member stands in its group as the group's state has it. -/
theorem State.Rig.member (hs : s.Rig) (hr : s.record i = some h) (hg : h.group = some k) :
    match (s.group k).state with
    | .empty => False
    | .armed => h.state = .ready ∧ h.height.isSome = true
    | .settling => h.state = .ready
    | .moving => h.state = .moving ∧ ((s.group k).arrived = false → h.landed = false)
    | .stopping => h.state = .ready ∨ h.state = .stopping ∨ h.state = .lost
    | .idle | .faulted => h.state ≠ .moving := by
  have hi : i ∈ (s.group k).members := (hs.members.mem_iff k i).2 ⟨h, hr, hg⟩
  have hf := (hs.memberStates k trivial).fit
  unfold State.MembersFit at hf
  cases hk : (s.group k).state <;> rw [hk] at hf
  case empty =>
    rw [(hs.members k).2.1 hk] at hi
    cases hi
  all_goals exact hf i hi h hr

/-- The groups of a hoist that may leave its place: none, or one at rest that is not GST_EMPTY (R22, R32, R129). -/
theorem State.Rig.groupAtRest (hs : s.Rig) (hr : s.record i = some h) (ha : s.groupAllows h GroupState.atRest = true)
    (hg : h.group = some k) : (s.group k).state = .idle ∨ (s.group k).state = .faulted := by
  have hm := hs.member hr hg
  have := (State.groupAllows_iff ..).1 ha k hg
  cases hk : (s.group k).state <;> simp_all [GroupState.atRest]

/-- A group at rest with no moving member is in step with its members. -/
theorem State.memberStates_atRest (hst : (s.group k).state = .idle ∨ (s.group k).state = .faulted)
    (hm : s.EveryMember k fun h => h.state ≠ .moving) : s.MemberStatesOk k := by
  unfold State.MemberStatesOk
  rcases hst with e | e <;> rw [e] <;> exact hm

/-- The members of a group at rest, when one record changes to another that does not move. -/
theorem State.Rig.atRest_congr (hs : s.Rig) (hgr : t.groups = s.groups)
    (hst : (s.group k).state = .idle ∨ (s.group k).state = .faulted)
    (hr : ∀ i, t.record i = s.record i ∨ ∀ r ∈ t.record i, r.state ≠ .moving) : t.MemberStatesOk k := by
  have hg : t.group k = s.group k := by rw [State.group, hgr]; rfl
  refine State.memberStates_atRest (hg ▸ hst) fun i hi r hri => ?_
  rcases hr i with e | hn
  · have hf := (hs.memberStates k trivial).fit
    unfold State.MembersFit at hf
    rcases hst with e' | e' <;> rw [e'] at hf <;> exact hf i (hg ▸ hi) r (e ▸ hri)
  · exact hn r hri

/-- One record changes to one that does not move, its group at rest; the lines may change with it. -/
theorem State.Rig.changeAtRest (hs : s.Rig) (hr : s.record i = some h)
    (hrec : ∀ j, t.record j = if i = j then some r else s.record j) (hgr : t.groups = s.groups) (hl : t.link = s.link)
    (hev : t.eventsWaiting = s.eventsWaiting) (hg : r.group = h.group) (ho : r.Ok s.link.lossThreshold)
    (hm : r.state ≠ .moving) (hk : ∀ k, h.group = some k → (s.group k).state = .idle ∨ (s.group k).state = .faulted)
    (he : t.safety.estopAsserted = s.safety.estopAsserted) (hp : t.safety.permit = s.safety.permit)
    (hd : s.safety.permit = false → r.demand = 0 ∧ r.state ≠ .jogging) (hj : t.JogOk) : t.Rig := by
  refine hs.retable hgr (by rw [hl]) (fun j => ?_) (fun k _ => ?_) (by rw [he, hp]; exact hs.estop) (fun hp' j v hv => ?_) hj
  · rw [hrec]
    split
    · next e => subst e; exact .inr ⟨h, r, hr, rfl, hg, ho, fun e => absurd e hm⟩
    · exact .inl rfl
  · by_cases hk' : h.group = some k
    · refine hs.atRest_congr hgr (hk k hk') fun j => ?_
      rw [hrec]
      split
      · exact .inr fun v hv => Option.some.inj hv ▸ hm
      · exact .inl rfl
    · have hgk : t.group k = s.group k := by rw [State.group, hgr]; rfl
      refine (hs.memberStates k trivial).congr (by rw [hgk]) (by rw [hgk]) (by rw [hgk]) (fun j hj' => .inl ?_)
        (by unfold State.LandedWaits; rw [hev]; exact id)
      rw [hrec, if_neg]
      rintro rfl
      obtain ⟨v, hv, hgv⟩ := (hs.members.mem_iff k i).1 hj'
      cases hr.symm.trans hv
      exact hk' hgv
  · rw [hp] at hp'
    rw [hrec] at hv
    split at hv
    · cases hv; exact hd hp'
    · exact hs.powerless hp' j v hv

/-- A record changes in a group at rest, to one that does not move; it jogs as before. -/
theorem State.Rig.setAtRest (hs : s.Rig) (hr : s.record i = some h) (he : e.record = some r) (hg : r.group = h.group)
    (ho : r.Ok s.link.lossThreshold) (hm : r.state ≠ .moving) (hd : s.safety.permit = false → r.demand = 0)
    (hj : r.state = .jogging ↔ h.state = .jogging)
    (hgr : ∀ k, h.group = some k → (s.group k).state = .idle ∨ (s.group k).state = .faulted) : (s.setSlot i e).Rig := by
  have hb := hs.setRecord hr he hg ho (fun e => absurd e hm) hd hj
  refine hs.changeAtRest hr (fun j => by rw [State.record_setSlot, he]) rfl rfl rfl hg ho hm hgr rfl rfl
    (fun hp => ⟨hd hp, fun e => (hs.powerless hp i h hr).2 (hj.1 e)⟩) hb.jog

end Sys2Proof.Machine

/-! ## The jog, the power and the rig -/

namespace Sys2Proof.Machine

variable {s : State} {i : Slot} {h : Hoist} {n : Nat}

/-! ### The jog -/

theorem Hoist.Ok.endJog (ho : h.Ok n) : h.endJog.Ok n := by
  unfold Hoist.endJog
  split
  · next hs =>
    obtain ⟨-, -, -, hdev, hl, -⟩ := ho.motion
    refine ho.working rfl (.inr (.inr (.inl hs))) (.inr (.inr (.inr rfl))) (by simp)
      (.rest rfl rfl ?_ ?_ rfl rfl (by simp) ho.baseline)
    · simpa [hs] using hdev
    · simpa [hs] using hl
  · exact ho

theorem Hoist.group_endJog (h : Hoist) : h.endJog.group = h.group := by
  unfold Hoist.endJog
  split <;> rfl

/-- The hoist in the jog slot jogs, and no other does. -/
theorem State.JogOk.jogs (hj : s.JogOk) (hi : s.safety.jogSlot = some i) :
    ∃ h, s.record i = some h ∧ h.state = .jogging := by
  have := (hj.1 i).2 hi
  simpa [State.hoistState] using this

theorem State.JogOk.not_jogging (hj : s.JogOk) (hi : s.safety.jogSlot ≠ some i) : ∀ h ∈ s.record i, h.state ≠ .jogging :=
  fun h hh e => hi ((hj.1 i).1 (by rw [State.hoistState, hh, Option.map_some, e]))

/-- The group of a jogging hoist is at rest. -/
theorem State.Rig.jogAtRest (hs : s.Rig) (hr : s.record i = some h) (hst : h.state = .jogging) {k : GroupId}
    (hg : h.group = some k) : (s.group k).state = .idle ∨ (s.group k).state = .faulted := by
  have hm := hs.member hr hg
  cases hk : (s.group k).state <;> simp_all

theorem State.Rig.endJog (hs : s.Rig) (cause : JogEndCause) : (s.endJog cause).Rig := by
  rcases s.endJog_cases cause with ⟨-, e⟩ | ⟨i, hi, e⟩
  · rw [e]; exact hs
  obtain ⟨h, hh, hst⟩ := hs.jog.jogs hi
  have hrec : ∀ j, (s.endJog cause).record j = if i = j then some h.endJog else s.record j := fun j => by
    rw [State.record, State.slot_endJog, hi]
    by_cases hij : i = j
    · subst hij
      simp [hh]
    · simp [hij]
      rfl
  have hend : h.endJog.state = .stopping := by simp [Hoist.endJog, hst]
  have hsaf := State.safety_endJog hi cause
  refine hs.changeAtRest hh hrec (by rw [e]; rfl) (by rw [e]; rfl) (by rw [e]; rfl) (by simp [Hoist.endJog, hst])
    (hs.records i h hh).endJog (by simp [hend]) (fun k => hs.jogAtRest hh hst) (by rw [hsaf]) (by rw [hsaf])
    (fun _ => ⟨by simp [Hoist.endJog, hst], by simp [hend]⟩) ⟨fun j => ?_, by rw [hsaf]; simp⟩
  rw [hsaf, State.hoistState, hrec]
  constructor
  · split
    · rw [Option.map_some, hend]
      intro e
      cases e
    · next hij =>
      intro e
      have := (hs.jog.1 j).1 e
      rw [hi] at this
      exact absurd (Option.some.inj this) hij
  · intro e
    cases e

theorem Hoist.Ok.startJog (ho : h.Ok n) (hst : h.state = .ready) {d p : Nat} (dir : Travel) (hp : h.height = some p)
    (h1 : 1 ≤ d) (h2 : d ≤ 500) : Hoist.Ok { h with
      state := .jogging, demand := h.jogDemand, direction := dir.direction, jogStart := some p,
      jogDistance := some d } n := by
  obtain ⟨-, -, -, hdev, hl, -⟩ := ho.motion
  refine ho.working rfl (.inl hst) (.inr (.inr (.inl rfl))) (fun _ => by simp [hp]) ?_
  have hb := ho.baseline
  obtain ⟨⟨-, -, -, -, -, -, -, -, -, -, -, -, h3, h4⟩, -, ⟨h5, -⟩, -⟩ := ho
  have hdir : dir.direction ≠ .none := by cases dir <;> simp [Travel.direction]
  refine ⟨.inr (by dsimp only; omega), fun _ => .inr rfl, ?_, ?_, ?_, by simp, by simp, ?_, ?_, hb⟩
  · simp only [hdir, false_iff]; omega
  · simpa [hst] using hdev
  · simpa [hst] using hl
  · simpa using h5 p hp
  · simpa using And.intro h1 h2

theorem State.Rig.startJog (hs : s.Rig) (hr : s.record i = some h) (hst : h.state = .ready)
    (hg : s.groupAllows h GroupState.atRest = true) (hj : s.anyJogging = false) (hp : s.safety.permit = true) {d p : Nat}
    (dir : Travel) (hh : h.height = some p) (h1 : 1 ≤ d) (h2 : d ≤ 500) : (s.startJog i dir d p).Rig := by
  have hrec : ∀ j, (s.startJog i dir d p).record j = if i = j then some { h with
      state := .jogging, demand := h.jogDemand, direction := dir.direction, jogStart := some p, jogDistance := some d }
      else s.record j := fun j => by
    show (s.modRecord i _).record j = _
    rw [State.modRecord_eq_setSlot hr, State.record_setSlot]
  have hnone : ∀ j, s.hoistState j ≠ some .jogging := fun j e => by
    have := (State.anyJogging_iff s).2 ⟨j, e⟩
    rw [hj] at this
    cases this
  refine hs.changeAtRest hr hrec rfl rfl rfl rfl ((hs.records i h hr).startJog hst dir hh h1 h2) (by simp)
    (fun k => hs.groupAtRest hr hg) rfl rfl (fun e => by rw [hp] at e; cases e) ⟨fun j => ?_, by simp [State.startJog]⟩
  show _ ↔ some i = some j
  rw [State.hoistState, hrec]
  split
  · next e => simp [e]
  · next hij => exact ⟨fun e => absurd e (hnone j), fun e => absurd (Option.some.inj e) hij⟩

theorem State.Rig.takeJog (hs : s.Rig) (slot direction : Byte) (distance : BitVec 16) :
    (s.takeJog slot direction distance).1.Rig := by
  rcases s.takeJog_cases slot direction distance with e | ⟨i, h, dir, d, p, hr, hst, hg, hj, hp, hh, h1, h2, e⟩ <;> rw [e]
  · exact hs
  · exact hs.startJog hr hst hg hj hp dir hh h1 h2

/-! ### The power (R78, R124, R134) -/

theorem Hoist.Ok.cutPower (ho : h.Ok n) : h.cutPower.Ok n := by
  unfold Hoist.cutPower
  split
  · next hs =>
    have hw : h.state.Working := by rcases hs with e | e <;> simp [HoistState.Working, e]
    refine ho.working rfl hw hw (fun _ => ho.height hs) ?_
    obtain ⟨-, -, -, hrest⟩ := ho.motion
    exact ⟨.inl rfl, fun e => absurd e (Nat.lt_irrefl 0), by simp [Hoist.quiet], hrest⟩
  · exact ho

theorem Hoist.cutPower_fields (h : Hoist) :
    h.cutPower.state = h.state ∧ h.cutPower.group = h.group ∧ h.cutPower.landed = h.landed ∧
      h.cutPower.height = h.height := by
  unfold Hoist.cutPower
  split <;> simp [Hoist.quiet]

/-- Without power no record demands motion. -/
theorem Hoist.Ok.demand_cutPower (ho : h.Ok n) : h.cutPower.demand = 0 := by
  unfold Hoist.cutPower
  split
  · rfl
  · next hs =>
    obtain ⟨-, hd, -⟩ := ho.motion
    by_contra hne
    exact hs (hd (Nat.pos_of_ne_zero hne))

theorem State.record_withSafety (s : State) (f : Safety) (j : Slot) :
    ({ s with safety := f } : State).record j = s.record j :=
  rfl

theorem State.record_cutPower (s : State) (j : Slot) : s.cutPower.record j = (s.record j).map Hoist.cutPower := by
  rw [State.cutPower, State.record, State.slot_mapSlots]
  rfl

@[simp] theorem State.safety_cutPower (s : State) : s.cutPower.safety = s.safety := by simp [State.cutPower]

theorem State.record_endJog (s : State) (cause : JogEndCause) (j : Slot) : (s.endJog cause).record j =
    if s.safety.jogSlot = some j then (s.record j).map Hoist.endJog else s.record j := by
  rw [State.record, State.slot_endJog]
  split <;> rfl

/-- The records after SLB's own part of an assertion: the power is cut, and a jog ends. -/
theorem State.record_assertEstop (hj : s.JogOk) (j : Slot) :
    s.assertEstop.record j = (s.record j).map fun h => h.cutPower.endJog := by
  rw [State.assertEstop, State.record_endJog, State.safety_cutPower, State.record_cutPower, State.record_withSafety]
  dsimp only
  split
  · rw [Option.map_map]
    rfl
  · next hn =>
    cases hr : s.record j with
    | none => rfl
    | some h =>
      have := hj.not_jogging hn h hr
      simp [Hoist.endJog, h.cutPower_fields.1, this]

theorem State.safety_assertEstop (hj : s.JogOk) : s.assertEstop.safety.estopAsserted = true ∧
    s.assertEstop.safety.permit = false ∧ s.assertEstop.safety.jogSlot = none ∧ s.assertEstop.safety.jogTimer = none ∧
    s.assertEstop.safety.estopWaiting = s.safety.estopWaiting := by
  unfold State.assertEstop
  have hc : ∀ t : State, t.cutPower.safety = t.safety := fun t => by simp [State.cutPower]
  rcases State.endJog_cases (State.cutPower { s with
      safety := { s.safety with estopAsserted := true, permit := false, estopSeen := true } }) .estop with
    ⟨hn, e⟩ | ⟨i, hi, e⟩ <;> rw [e]
  · rw [hc] at hn ⊢
    have hjt := hj.2
    have hn : s.safety.jogSlot = none := hn
    simp only [hn, Option.isSome_none, Bool.false_eq_true, iff_false, Bool.not_eq_true,
      Option.isSome_eq_false_iff, Option.isNone_iff_eq_none] at hjt
    exact ⟨rfl, rfl, hn, hjt, rfl⟩
  · simp only [State.safety_slotAttention, State.safety_modRecord, hc, and_self]

theorem State.assertEstop_fields (s : State) : s.assertEstop.groups = s.groups ∧ s.assertEstop.link = s.link ∧
    s.assertEstop.eventsWaiting = s.eventsWaiting := by
  unfold State.assertEstop
  rw [State.endJog_fields]
  simp [State.cutPower]

/-- SLB's own part of an assertion keeps the rig. -/
theorem State.Rig.assertEstop (hs : s.Rig) : s.assertEstop.Rig := by
  obtain ⟨h1, h2, h3, h4, -⟩ := State.safety_assertEstop hs.jog
  obtain ⟨hgr, hl, hev⟩ := s.assertEstop_fields
  have hrec := State.record_assertEstop hs.jog
  have hgk : ∀ k, s.assertEstop.group k = s.group k := fun k => by rw [State.group, hgr]; rfl
  have hst : ∀ h : Hoist, h.cutPower.endJog.state ≠ .jogging := fun h => by
    unfold Hoist.endJog
    split
    · simp
    · next hn => exact hn
  have hkeep : ∀ h : Hoist, h.state ≠ .jogging → h.cutPower.endJog = h.cutPower := fun h hn => by
    rw [Hoist.endJog, if_neg]
    rw [h.cutPower_fields.1]
    exact hn
  have hok : ∀ i, ∀ h ∈ s.record i, h.cutPower.endJog.Ok s.link.lossThreshold ∧ h.cutPower.endJog.demand = 0 :=
    fun i h hh => ⟨(hs.records i h hh).cutPower.endJog, by
      unfold Hoist.endJog
      split
      · rfl
      · exact (hs.records i h hh).demand_cutPower⟩
  refine hs.retable hgr (by rw [hl]) (fun j => ?_) (fun k _ => ?_) (fun _ => h2) (fun _ j v hv => ?_)
    ⟨fun j => ?_, by simp [h3, h4]⟩
  · rw [hrec]
    cases hr : s.record j with
    | none => exact .inl rfl
    | some h =>
      refine .inr ⟨h, h.cutPower.endJog, rfl, rfl, ?_, (hok j h hr).1, fun e => ?_⟩
      · rw [Hoist.group_endJog, h.cutPower_fields.2.1]
      · by_cases hj : h.state = .jogging
        · simp [Hoist.endJog, h.cutPower_fields.1, hj] at e
        · rw [hkeep h hj] at e ⊢
          rw [h.cutPower_fields.1] at e
          rw [h.cutPower_fields.2.1]
          exact hs.grouped j h hr e
  · by_cases hjog : ∃ i h, s.record i = some h ∧ h.state = .jogging ∧ h.group = some k
    · obtain ⟨i, h, hr, hj, hk⟩ := hjog
      have hrest := hs.jogAtRest hr hj hk
      refine State.memberStates_atRest (hgk k ▸ hrest) fun j hjm v hv => ?_
      rw [hgk] at hjm
      obtain ⟨w, hw, hwk⟩ := (hs.members.mem_iff k j).1 hjm
      rw [hrec, hw] at hv
      cases hv
      have hm := hs.member hw hwk
      have hm : w.state ≠ .moving := by rcases hrest with e | e <;> rw [e] at hm <;> exact hm
      show w.cutPower.endJog.state ≠ .moving
      unfold Hoist.endJog
      split
      · simp
      · rw [w.cutPower_fields.1]; exact hm
    · refine (hs.memberStates k trivial).congr (by rw [hgk]) (by rw [hgk]) (by rw [hgk]) (fun j hj => ?_)
        (by unfold State.LandedWaits; rw [hev]; exact id)
      obtain ⟨w, hw, hwk⟩ := (hs.members.mem_iff k j).1 hj
      have hn : w.state ≠ .jogging := fun e => hjog ⟨j, w, hw, e, hwk⟩
      refine .inr ⟨w, w.cutPower, hw, ?_, w.cutPower_fields.1, w.cutPower_fields.2.2.1, by
        rw [w.cutPower_fields.2.2.2]; exact id⟩
      rw [hrec, hw, Option.map_some, hkeep w hn]
  · rw [hrec] at hv
    obtain ⟨w, hw, rfl⟩ := Option.map_eq_some_iff.1 hv
    exact ⟨(hok j w hw).2, hst w⟩
  · rw [h3, State.hoistState, hrec]
    cases s.record j with
    | none => simp
    | some h => simp [hst h]

end Sys2Proof.Machine

/-! ## The laws of a record under losses, misses and replies -/

namespace Sys2Proof.Machine

/-! ### Condition sets of a hoist -/

theorem CondSet.HoistSet.add {a : CondSet} (ha : a.HoistSet) {c : Cond} (hc : c.isGroupCause = false) :
    (a.add c).HoistSet :=
  ⟨CondSet.wf_add a c, fun d hd => by
    rcases (CondSet.mem_add a c d).1 hd with e | e
    · exact ha.2 d e
    · exact e ▸ hc⟩

theorem CondSet.HoistSet.remove {a : CondSet} (ha : a.HoistSet) (c : Cond) : (a.remove c).HoistSet :=
  ⟨CondSet.wf_remove a c, fun d hd => ha.2 d ((CondSet.mem_remove a c d).1 hd).1⟩

theorem CondSet.HoistSet.union {a b : CondSet} (ha : a.HoistSet) (hb : b.HoistSet) : (a.union b).HoistSet :=
  ⟨CondSet.wf_union a b, fun d hd => ((CondSet.mem_union a b d).1 hd).elim (ha.2 d) (hb.2 d)⟩

theorem CondSet.HoistSet.nil : CondSet.HoistSet [] := ⟨CondSet.wf_nil, fun _ h => by cases h⟩

section Records
variable {h : Hoist} {n : Nat}

/-! ### A loss (R19) -/

theorem Hoist.Ok.lost (ho : h.Ok n) (ha : h.state ≠ .admitting) (hc : h.missCount = n) :
    Hoist.Ok { h.lose with
      current := h.current.add .lost
      accrued := h.accrued.union (h.current.add .lost) } n := by
  have hb := ho.baseline
  obtain ⟨config, ⟨load, speed, rated⟩, ⟨height, load', -⟩, -, ⟨wf, wf', -, link, -⟩, ⟨misses, -, last, -⟩⟩ := ho
  simp only [ha, iff_false] at load speed
  refine ⟨config, ⟨by simpa [Hoist.lose] using load, by simpa [Hoist.lose] using speed, rated⟩,
    ⟨height, load', by simp [Hoist.lose]⟩, .rest rfl rfl rfl rfl rfl rfl (by simp [Hoist.lose]) hb,
    ⟨wf.add rfl, wf'.union (wf.add rfl), by simp [Hoist.lose], ?_, by simp [Hoist.lose]⟩,
    ⟨misses, fun _ => hc, last, by simp [Hoist.lose]⟩⟩
  simpa [Hoist.lose] using link

/-! ### A miss (R154) -/

theorem Hoist.Ok.missed (ho : h.Ok n) (hn : 1 ≤ n) (reason : MissReason) : (h.missed reason n).Ok n := by
  obtain ⟨config, rated, report, motion, ⟨wf, wf', lost, link, fresh⟩, ⟨misses, lostMiss, last, group⟩⟩ := ho
  refine ⟨config, rated, report, motion, ⟨wf.add rfl, wf'.union (wf.add rfl), ?_, ?_, fun hs c hc => ?_⟩,
    ⟨Nat.min_le_right _ _, fun hs => ?_, fun _ => rfl, group⟩⟩
  · simpa [Hoist.missed] using lost
  · simp [Hoist.missed]
    omega
  · rcases (CondSet.mem_add _ _ _).1 hc with e | e
    · exact fresh hs c e
    · exact e
  · have := lostMiss hs
    simp only [Hoist.missed]
    omega

/-! ### Replies (R10, R13, R152) -/

/-- A record whose reported fields, conditions and counts a STATUS reply has written, in its own state (R152). -/
theorem Hoist.Ok.reported (ho : h.Ok n) (flags : Byte) {height load : Nat} (hh : height ≤ 500000)
    (ha : h.state ≠ .admitting) {st : HoistState} {c : CondSet}
    (hst : st = h.state ∨ (h.state = .stopping ∨ h.state = .lost) ∧ (st = .ready ∨ st = .stopping))
    (hc : c.HoistSet) (hsl : st ≠ .lost) (hlost : Cond.lost ∉ c) (hlink : Cond.linkErr ∉ c) :
    Hoist.Ok { h with
      state := st
      nodeFlags := some flags
      height := some height
      load := if load ≤ 8190 then some load else if load = 65535 then none else some 8191
      missCount := 0
      current := c
      accrued := h.accrued.union (h.current.remove .linkErr) } n := by
  have hm := ho.motion
  have hb := ho.baseline
  have hj := ho.noJog
  obtain ⟨config, ⟨ratedLoad, speed, rated⟩, -, -, ⟨wf, wf', -, -, -⟩, ⟨-, -, -, group⟩⟩ := ho
  simp only [ha, iff_false] at ratedLoad speed
  have hsa : st ≠ .admitting := by
    rcases hst with e | ⟨-, e | e⟩
    · exact e ▸ ha
    all_goals simp [e]
  refine ⟨config, ⟨by simpa [hsa] using ratedLoad, by simpa [hsa] using speed, rated⟩, ⟨?_, ?_, fun _ => rfl⟩, ?_,
    ⟨hc, wf'.union (wf.remove _), by simpa [hsl] using hlost, ?_, fun e => absurd e hsa⟩, ⟨Nat.zero_le _, ?_, ?_, ?_⟩⟩
  · simpa using hh
  · intro w hw
    dsimp only at hw
    split at hw
    · cases hw; omega
    · split at hw
      · cases hw
      · cases hw; omega
  · rcases hst with rfl | ⟨e, e'⟩
    · exact hm
    · have hnj : h.state ≠ .jogging ∧ h.state ≠ .moving := by rcases e with e | e <;> simp [e]
      obtain ⟨hnj, hnm⟩ := hnj
      obtain ⟨-, hd, hdir, hdev, hl, -⟩ := hm
      obtain ⟨j1, j2⟩ := hj hnj
      have hd0 : h.demand = 0 := by
        by_contra hne
        exact (hd (Nat.pos_of_ne_zero hne)).elim hnm hnj
      refine .rest hd0 (hdir.2 hd0) ?_ ?_ j1 j2 (by rcases e' with e | e <;> simp [e]) hb
      · simpa [hnm] using hdev
      · simpa [hnm] using hl
  · simpa using hlink
  · exact fun e => absurd e hsl
  · simp
  · rintro (e | e)
    · exact absurd e hsa
    · rcases hst with e' | ⟨-, e' | e'⟩
      · exact group (.inr (e' ▸ e))
      all_goals exact absurd (e.symm.trans e') (by simp)

/-- The record that a STATUS reply leaves to its evaluation. -/
theorem Hoist.Ok.replied (ho : h.Ok n) (flags : Byte) {height : Nat} (load : Nat) (hh : height ≤ 500000)
    (ha : h.state ≠ .admitting) {lostTo : HoistState} (hl : lostTo = .stopping ∨ lostTo = .ready) :
    (h.replied flags height load lostTo).Ok n := by
  have hset : h.current.HoistSet := by
    obtain ⟨-, -, -, -, ⟨wf, -⟩, -⟩ := ho
    exact wf
  have hlost : Cond.lost ∈ h.current ↔ h.state = .lost := by
    obtain ⟨-, -, -, -, ⟨-, -, hl, -⟩, -⟩ := ho
    exact hl
  refine ho.reported flags hh ha ?_ ?_ ?_ ?_ ?_
  · cases hs : h.state
    case stopping => dsimp only; split <;> simp
    case lost => rcases hl with e | e <;> simp [e]
    all_goals exact .inl rfl
  · split
    · exact (hset.remove _).remove _
    · exact hset.remove _
  · cases hs : h.state
    case stopping => dsimp only; split <;> simp
    case lost => rcases hl with e | e <;> simp [e]
    all_goals simp
  · split
    · simp
    · next hs => simp [hlost, hs]
  · split <;> simp

/-! ### The evaluation (R71) -/

theorem demandOf_range (v : Int) (rated vg : Nat) :
    (demandOf v rated vg).value = 0 ∨ 20 ≤ (demandOf v rated vg).value ∧ (demandOf v rated vg).value ≤ 1000 := by
  have hmax : Config.maxDemand = 1000 := rfl
  have hmin : Config.minDemand = 20 := rfl
  unfold demandOf
  split
  · exact .inl rfl
  · dsimp only
    split
    · exact .inr ⟨by dsimp only; omega, by dsimp only; omega⟩
    · exact .inr ⟨by dsimp only; omega, by dsimp only; omega⟩

theorem Hoist.track_demand (h : Hoist) (g : Group) (dir : Travel) (mainsEn : Bool) (p rated : Nat) (reference : Int) :
    let d := (h.track g dir mainsEn p rated reference).demand.value
    (d = 0 ∨ 20 ≤ d ∧ d ≤ 1000) ∧ (mainsEn = false → d = 0) := by
  unfold Hoist.track
  dsimp only
  split
  · exact ⟨.inl rfl, fun _ => rfl⟩
  · next hn =>
    refine ⟨demandOf_range .., fun e => absurd ?_ hn⟩
    simp [e]

theorem Hoist.capturedBaseline_range (hb : ∀ b ∈ h.baseline, 20 ≤ b ∧ b ≤ 8190) :
    ∀ b ∈ h.capturedBaseline, 20 ≤ b ∧ b ≤ 8190 := by
  have hmin : Config.minBaseline = 20 := rfl
  have hover : Config.loadOverrange = 8191 := rfl
  unfold Hoist.capturedBaseline
  intro b hbase
  split at hbase
  · split at hbase
    · cases hbase
      omega
    · exact hb b hbase
  · exact hb b hbase

/-- A set that a test finds, which passes no cause of a group, no loss and no link error. -/
theorem CondSet.found_ofTest {p : Cond → Bool} (h1 : p .lost = false) (h2 : p .linkErr = false) (h3 : p .estop = false)
    (h4 : p .landTime = false) (h5 : p .stopTime = false) :
    (CondSet.ofTest p).HoistSet ∧ Cond.lost ∉ CondSet.ofTest p ∧ Cond.linkErr ∉ CondSet.ofTest p := by
  refine ⟨⟨CondSet.wf_ofTest _, fun c hc => ?_⟩, by simp [h1], by simp [h2]⟩
  rw [CondSet.mem_ofTest] at hc
  cases c with
  | estop => exact absurd hc (by simp [h3])
  | landTime => exact absurd hc (by simp [h4])
  | stopTime => exact absurd hc (by simp [h5])
  | _ => rfl

/-- An evaluation finds conditions of a hoist, and neither COND_LOST nor COND_LINKERR (R71). -/
theorem State.found_evaluation (s : State) (h : Hoist) :
    (s.evaluation h).found.HoistSet ∧ Cond.lost ∉ (s.evaluation h).found ∧ Cond.linkErr ∉ (s.evaluation h).found := by
  have rest : h.evaluateAtRest.found.HoistSet ∧ Cond.lost ∉ h.evaluateAtRest.found ∧
      Cond.linkErr ∉ h.evaluateAtRest.found := by
    unfold Hoist.evaluateAtRest
    dsimp only
    exact CondSet.found_ofTest rfl rfl rfl rfl rfl
  unfold State.evaluation
  split
  · split
    · unfold Hoist.evaluateMoving
      split
      · dsimp only
        unfold Hoist.movingFindings
        exact CondSet.found_ofTest rfl rfl rfl rfl rfl
      · exact rest
    · exact rest
  · unfold Hoist.evaluateJog
    dsimp only
    exact CondSet.found_ofTest rfl rfl rfl rfl rfl
  all_goals exact rest

/-- The motion fields that an evaluation writes keep their laws. -/
theorem State.motion_evaluation (s : State) (ho : h.Ok n) :
    (s.evaluation h).hoist.MotionOk ∧ (s.safety.permit = false → h.demand = 0 → (s.evaluation h).hoist.demand = 0) := by
  have rest : h.MotionOk ∧ (s.safety.permit = false → h.demand = 0 → h.demand = 0) := ⟨ho.motion, fun _ => id⟩
  unfold State.evaluation
  split
  · next hs =>
    split
    · next k _ =>
      unfold Hoist.evaluateMoving
      split
      · next dir reference p rated _ _ _ _ =>
        obtain ⟨hd, hp⟩ := h.track_demand (s.group k) dir s.mainsEn p rated reference
        have hb := h.capturedBaseline_range ho.baseline
        obtain ⟨j1, j2⟩ := ho.noJog (by simp [hs])
        dsimp only
        generalize h.track (s.group k) dir s.mainsEn p rated reference = t at hd hp
        have hdir : dir.direction ≠ .none := by cases dir <;> simp [Travel.direction]
        refine ⟨⟨hd, fun _ => .inl hs, ?_, fun _ => hs, fun _ => hs, ?_, ?_, ?_, ?_, hb⟩, fun e _ => hp e⟩
        · dsimp only
          split
          · next e => simp [e]
          · next e => simp [hdir, e]
        · simp [j1, hs]
        · simp [j2, hs]
        · simp [j1]
        · simp [j2]
      · exact rest
    · exact rest
  all_goals exact rest

/-- The record that an evaluation leaves: its motion and its conditions within the laws. -/
theorem Hoist.Ok.evaluated (s : State) (ho : h.Ok n) (ha : h.state ≠ .admitting) (hl : h.state ≠ .lost)
    (hm : h.missCount = 0) : (s.evaluatedRecord h).Ok n := by
  obtain ⟨hmot, -⟩ := s.motion_evaluation ho
  obtain ⟨hf, hf1, hf2⟩ := s.found_evaluation h
  have he := s.evaluation_fields h
  have hh := ho.height
  obtain ⟨config, rated, ⟨height, load, -⟩, -, ⟨-, wf', -⟩, ⟨misses, -, last, group⟩⟩ := ho
  unfold State.evaluatedRecord
  dsimp only at he
  generalize (s.evaluation h).hoist = r at hmot he
  generalize (s.evaluation h).found = c at hf hf1 hf2
  rw [he] at hmot ⊢
  exact ⟨config, rated, ⟨height, load, hh⟩, hmot,
    ⟨hf, wf'.union hf, by simpa [hl] using hf1, by simpa [hm] using hf2, fun e => absurd e ha⟩,
    ⟨misses, fun e => absurd e hl, last, group⟩⟩

/-! ### Commands (R9, R10, R21 to R23, R26, R33) -/

/-- The record of a completed admission (R10). -/
theorem Hoist.Ok.identified (ho : h.Ok n) (ha : h.state = .admitting) (flags : Byte) {load speed : Nat}
    (hv : ratedValid load speed = true) : Hoist.Ok { h with
      state := .ready
      nodeFlags := some flags
      ratedLoad := some load
      ratedSpeed := some speed
      missCount := 0
      current := h.current.remove .linkErr
      accrued := h.accrued.union (h.current.remove .linkErr) } n := by
  obtain ⟨r1, r2, r3, r4⟩ := (ratedValid_iff load speed).1 hv
  obtain ⟨j1, j2⟩ := ho.noJog (by simp [ha])
  have hb := ho.baseline
  obtain ⟨-, hd, hdir, hdev, hl, -⟩ := ho.motion
  have hd0 : h.demand = 0 := by
    by_contra hne
    exact (hd (Nat.pos_of_ne_zero hne)).elim (by simp [ha]) (by simp [ha])
  obtain ⟨config, -, ⟨height, load', -⟩, -, ⟨wf, wf', lost, -, -⟩, -⟩ := ho
  refine ⟨config, ⟨by simp, by simp, by simpa using And.intro r1 r2, by simpa using And.intro r3 r4⟩,
    ⟨height, load', by simp⟩, .rest hd0 (hdir.2 hd0) ?_ ?_ j1 j2 (by simp) hb,
    ⟨wf.remove _, wf'.union (wf.remove _), ?_, by simp, by simp⟩, ⟨Nat.zero_le _, by simp, by simp, by simp⟩⟩
  · simpa [ha] using hdev
  · simpa [ha] using hl
  · simpa [ha] using lost

/-- A record as AMEND and CLRFLAGS write it. -/
theorem Hoist.Edit.ok {r : Hoist} (e : h.Edit r) (ho : h.Ok n) : r.Ok n := by
  have ha : r.accrued.HoistSet := by
    obtain ⟨-, -, -, -, ⟨-, wf', -⟩, -⟩ := ho
    rcases e.accrued with e | e <;> rw [e]
    · exact wf'
    · exact CondSet.HoistSet.nil
  have hc : r.ConfigOk := e.config ho.1
  obtain ⟨-, rated, report, motion, ⟨wf, -, conds⟩, miss⟩ := ho
  rw [e.fields] at ha hc ⊢
  exact ⟨hc, rated, report, motion, ⟨wf, ha, conds⟩, miss⟩

/-- A record of another group, or of none (R33). -/
theorem Hoist.Ok.regroup (ho : h.Ok n) {g : Option GroupId}
    (hg : g = none ∨ h.state ≠ .admitting ∧ h.state ≠ .retiring) : Hoist.Ok { h with group := g } n := by
  obtain ⟨config, rated, report, motion, conds, ⟨misses, lost, last, -⟩⟩ := ho
  refine ⟨config, rated, report, motion, conds, ⟨misses, lost, last, fun e => ?_⟩⟩
  rcases hg with hg | ⟨h1, h2⟩
  · exact hg
  · exact absurd e (by simp [h1, h2])

/-- The record of a hoist that retires (R22). -/
theorem Hoist.Ok.retiring (ho : h.Ok n) (hs : h.state = .ready) (hg : h.group = none) :
    Hoist.Ok { h with state := .retiring, demand := 0, direction := .none } n := by
  obtain ⟨j1, j2⟩ := ho.noJog (by simp [hs])
  have hb := ho.baseline
  obtain ⟨-, -, -, hdev, hl, -⟩ := ho.motion
  obtain ⟨config, ⟨load, speed, rated⟩, ⟨height, load', -⟩, -, ⟨wf, wf', lost, link, -⟩, ⟨misses, -, last, -⟩⟩ := ho
  simp only [hs, reduceCtorEq, iff_false] at load speed lost
  refine ⟨config, ⟨by simpa using load, by simpa using speed, rated⟩, ⟨height, load', by simp⟩,
    .rest rfl rfl ?_ ?_ j1 j2 (by simp) hb, ⟨wf, wf', by simpa using lost, link, by simp⟩,
    ⟨misses, by simp, last, fun _ => hg⟩⟩
  · simpa [hs] using hdev
  · simpa [hs] using hl

/-- The record of an accepted ADMIT (R9). -/
theorem Hoist.admitted_ok {a lo up : Nat} {tr : Int} (h1 : 1 ≤ a) (h2 : a ≤ 62) (hl : limitsValid lo up tr = true) :
    (Hoist.admitted a lo up tr).Ok n := by
  obtain ⟨l1, l2, l3, l4⟩ := (limitsValid_iff ..).1 hl
  refine ⟨⟨h1, h2, l1, l2, l3, l4, ?_⟩, ?_, ?_, .rest rfl rfl rfl rfl rfl rfl ?_ ?_, ⟨.nil, .nil, ?_⟩, ?_⟩ <;>
    simp [Hoist.admitted, Hoist.ReportOk, Hoist.MissOk]

/-- A record after RESTART (R26). -/
theorem Hoist.Ok.restart (ho : h.Ok n) : Hoist.Ok { h with accrued := [], baseline := none } n := by
  obtain ⟨config, rated, report, ⟨m1, m2, m3, m4, m5, m6, m7, m8, m9, -⟩, ⟨wf, -, conds⟩, miss⟩ := ho
  exact ⟨config, rated, report, ⟨m1, m2, m3, m4, m5, m6, m7, m8, m9, by simp⟩, ⟨wf, .nil, conds⟩, miss⟩

/-- A record that stands lost under a new threshold (R158). -/
theorem Hoist.Ok.recount (ho : h.Ok n) (hs : h.state = .lost) (hn : 1 ≤ n) {m : Nat} (hm : 1 ≤ m) :
    Hoist.Ok { h with missCount := m } m := by
  obtain ⟨config, rated, report, motion, ⟨wf, wf', lost, link, fresh⟩, ⟨-, lostMiss, last, group⟩⟩ := ho
  have hc := lostMiss hs
  refine ⟨config, rated, report, motion, ⟨wf, wf', lost, ?_, fresh⟩, ⟨Nat.le_refl _, fun _ => rfl, fun _ => last ?_, group⟩⟩
  · rw [link]
    dsimp only
    omega
  · omega

/-- A record whose count stands within a new threshold, not lost. -/
theorem Hoist.Ok.rethreshold (ho : h.Ok n) (hs : h.state ≠ .lost) {m : Nat} (hm : h.missCount ≤ m) : h.Ok m := by
  obtain ⟨config, rated, report, motion, conds, ⟨-, -, last, group⟩⟩ := ho
  exact ⟨config, rated, report, motion, conds, ⟨hm, fun e => absurd e hs, last, group⟩⟩

/-- A record that a lowered threshold loses (R158). -/
theorem Hoist.Ok.cutCount (ho : h.Ok n) {m : Nat} (h1 : 1 ≤ m) (hm : m < h.missCount) :
    Hoist.Ok { h with missCount := m } m := by
  obtain ⟨config, rated, report, motion, ⟨wf, wf', lost, link, fresh⟩, ⟨-, -, last, group⟩⟩ := ho
  refine ⟨config, rated, report, motion, ⟨wf, wf', lost, ?_, fresh⟩,
    ⟨Nat.le_refl _, fun _ => rfl, fun _ => last ?_, group⟩⟩
  · rw [link]
    dsimp only
    omega
  · omega

end Records

end Sys2Proof.Machine

/-! ## Losses, replies and the events of an evaluation keep the rig -/

namespace Sys2Proof.Machine

variable {s t : State} {k : GroupId} {i : Slot} {h r : Hoist} {e : SlotEntry}

/-- The rig with one group out of step. -/
theorem State.RigBut.only {g : Option GroupId} (hs : s.RigBut fun k => g ≠ some k) (hg : g = some k) :
    s.RigBut (· ≠ k) :=
  { hs with memberStates := fun j hj => hs.memberStates j fun e => hj (Option.some.inj (e.symm.trans hg)) }

theorem State.RigBut.all {g : Option GroupId} (hs : s.RigBut fun k => g ≠ some k) (hg : g = none) : s.Rig :=
  hs.of_group fun k e => by rw [hg] at e; cases e

/-- What holds of every member of a group after one record has changed. -/
theorem State.Rig.everyMember_setSlot (hs : s.Rig) (he : e.record = some r)
    {p : Hoist → Prop} (hp : p r) (hm : ∀ j v, s.record j = some v → v.group = some k → p v) :
    (s.setSlot i e).EveryMember k p := by
  intro j hj v hv
  rw [State.record_setSlot] at hv
  split at hv
  · cases he.symm.trans hv
    exact hp
  · obtain ⟨w, hw, hk⟩ := (hs.members.mem_iff k j).1 hj
    cases hw.symm.trans hv
    exact hm j v hw hk

/-! ### Losses (R19, R109) -/

/-- A loss event of a group of which one member has just been lost. -/
theorem State.RigBut.lossEvent (hs : s.RigBut (· ≠ k)) (i : Slot) (value : Option Int)
    (hm : match (s.group k).state with
      | .empty => s.EveryMember k fun _ => True
      | .armed | .settling => s.EveryMember k fun h => h.state = .ready ∨ h.state = .lost
      | .moving => s.EveryMember k fun h => h.state = .moving ∨ h.state = .lost
      | .stopping => s.EveryMember k fun h => h.state = .ready ∨ h.state = .stopping ∨ h.state = .lost
      | .idle | .faulted => s.EveryMember k fun h => h.state ≠ .moving) : (s.lossEvent k i value).Rig := by
  have hfault : (s.group k).state = .armed ∨ (s.group k).state = .settling →
      s.EveryMember k (fun h => h.state = .ready ∨ h.state = .lost) →
      (s.modGroup k fun g => g.fault .lost (some i) value).Rig := fun hst hm => by
    have he : (s.group k).Event ((s.group k).fault .lost (some i) value) := .fault _ _ _ _ hst
    refine (hs.write he (.inr ⟨by rcases hst with e | e <;> simp [e], .inr rfl⟩)).whole
      (State.memberStates_settled rfl (.inr rfl) fun j hj v hv => ?_)
    rcases hm j hj v hv with e | e <;> simp [e]
  unfold State.lossEvent State.conditionEvent
  cases hst : (s.group k).state <;> rw [hst] at hm <;> dsimp only
  case empty => exact hs.whole (by unfold State.MemberStatesOk; rw [hst]; trivial)
  case idle =>
    have he : (s.group k).Event ((s.group k).post .lost i value) := .post _ _ _ _ hst
    refine (hs.write he (.inl (Group.post_fields ..))).whole
      (State.memberStates_settled ((s.group k).members_post ..) (.inl ?_) hm)
    rw [((s.group k).post_fields ..).1, hst]
  case armed => exact hfault (.inl hst) hm
  case settling => exact hfault (.inr hst) hm
  case moving =>
    refine hs.stop hst (fun j hj v hv => ?_) ..
    rcases hm j hj v hv with e | e <;> simp [e]
  case stopping => exact hs.testStop hst hm
  case faulted => exact hs.whole (State.memberStates_atRest (.inr hst) hm)

/-- A loss keeps the rig (R19): the record, its group's loss event, and the end of its jog. -/
theorem State.Rig.lose (hs : s.Rig) (hr : s.record i = some h) (hw : h.state.Working)
    (hc : h.missCount = s.link.lossThreshold) : (s.lose i h).Rig := by
  have hstates : h.state ≠ .admitting := by rcases hw with e | e | e | e <;> simp [e]
  have hok := (hs.records i h hr).lost hstates hc
  have hslot : ((s.slot i).lost h).record = some { h.lose with
      current := h.current.add .lost, accrued := h.accrued.union (h.current.add .lost) } := rfl
  by_cases hj : h.state = .jogging
  · have hjs : s.safety.jogSlot = some i := (hs.jog.1 i).1 (by rw [State.hoistState, hr, Option.map_some, hj])
    have hrest := fun k => hs.jogAtRest (k := k) hr hj
    rw [State.lose_jogging hr hjs hj]
    let t : State := { s.setSlot i ((s.slot i).lost h) with
      safety := { s.safety with jogSlot := none, jogTimer := none, lastJogEnd := some ⟨i, .condition .lost⟩ } }
    have hrec : ∀ j, t.record j = if i = j then some { h.lose with
        current := h.current.add .lost, accrued := h.accrued.union (h.current.add .lost) } else s.record j := fun j => by
      show (s.setSlot i _).record j = _
      rw [State.record_setSlot, hslot]
    have ht : t.Rig := by
      refine hs.changeAtRest hr hrec rfl rfl rfl rfl hok (by simp [Hoist.lose]) hrest rfl rfl
        (fun _ => ⟨rfl, by simp [Hoist.lose]⟩) ⟨fun j => ?_, by simp [t]⟩
      show _ ↔ (none : Option Slot) = some j
      rw [State.hoistState, hrec]
      split
      · simp [Hoist.lose]
      · next hij =>
        constructor
        · intro e
          have := (hs.jog.1 j).1 e
          rw [hjs] at this
          exact absurd (Option.some.inj this) hij
        · intro e; cases e
    have heq : (s.setSlot i ((s.slot i).lost h)).groupLoss h.group i (some h.missCount) =
        { t.groupLoss h.group i (some h.missCount) with safety := s.safety } := by
      cases hg : h.group with
      | none => rfl
      | some k =>
        have hk : (s.group k).state = .empty ∨ (s.group k).state = .idle ∨ (s.group k).state = .faulted :=
          .inr (hrest k hg)
        simp only [State.groupLoss]
        rw [State.lossEvent_rest (s := s.setSlot i ((s.slot i).lost h)) hk, State.lossEvent_rest (s := t) hk]
        rfl
    have hsaf : (t.groupLoss h.group i (some h.missCount)).safety = t.safety :=
      (t.groupLoss_work ..).tables.safety
    dsimp only
    rw [heq]
    show State.Rig { t.groupLoss h.group i (some h.missCount) with safety := t.safety }
    rw [← hsaf]
    cases h.group with
    | none => exact ht
    | some k => exact (t.lossEvent_chain k ..).rig ht
  · have hb : (s.setSlot i ((s.slot i).lost h)).RigBut fun k => h.group ≠ some k :=
      hs.setRecord hr hslot rfl hok (by simp [Hoist.lose]) (fun _ => rfl) (by simp [Hoist.lose, hj])
    rw [State.lose_eq hr]
    dsimp only
    rw [if_neg hj]
    cases hg : h.group with
    | none => exact hb.all hg
    | some k =>
      refine (hb.only hg).lossEvent i _ ?_
      have every : ∀ {p : Hoist → Prop}, p { h.lose with
          current := h.current.add .lost, accrued := h.accrued.union (h.current.add .lost) } →
          (∀ j v, s.record j = some v → v.group = some k → p v) →
          (s.setSlot i ((s.slot i).lost h)).EveryMember k p := fun hp hm => hs.everyMember_setSlot hslot hp hm
      have hmem := fun j v hv hvk => hs.member (i := j) (h := v) (k := k) hv hvk
      rw [State.group_setSlot]
      cases hst : (s.group k).state <;> simp only [hst] at hmem ⊢
      case empty => exact every trivial fun _ _ _ _ => trivial
      case armed => exact every (.inr rfl) fun j v hv hvk => .inl (hmem j v hv hvk).1
      case settling => exact every (.inr rfl) fun j v hv hvk => .inl (hmem j v hv hvk)
      case moving => exact every (.inr rfl) fun j v hv hvk => .inl (hmem j v hv hvk).1
      case stopping => exact every (.inr (.inr rfl)) hmem
      case idle => exact every HoistState.noConfusion hmem
      case faulted => exact every HoistState.noConfusion hmem

/-! ### The events of an evaluated member (R81, R82) -/

/-- Outside GST_MOVING and GST_STOPPING a group waits for no member. -/
theorem State.MembersFit.whole (hf : s.MembersFit k) (hm : (s.group k).state ≠ .moving)
    (hst : (s.group k).state = .stopping → s.MemberStatesOk k) : s.MemberStatesOk k := by
  unfold State.MembersFit at hf
  cases hk : (s.group k).state <;> rw [hk] at hf
  case moving => exact absurd hk hm
  case stopping => exact hst hk
  all_goals
    unfold State.MemberStatesOk
    rw [hk]
    exact hf

/-- A moving group that has not arrived with every member landed. -/
theorem State.MembersFit.unlanded (hf : s.MembersFit k) (hms : s.MembersOk) (hm : (s.group k).state = .moving)
    (hn : ¬ ((s.group k).arrived = true ∧ s.allLanded k = true)) : s.MemberStatesOk k := by
  unfold State.MembersFit at hf
  rw [hm] at hf
  unfold State.MemberStatesOk
  rw [hm]
  refine ⟨fun i hi h hh => (hf i hi h hh).1, ?_⟩
  split
  · next ha =>
    have hl : ¬ s.allLanded k = true := fun e => hn ⟨ha, e⟩
    rw [State.allLanded_iff] at hl
    push Not at hl
    obtain ⟨i, hi, hl⟩ := hl
    obtain ⟨h, hh, -⟩ := (hms.mem_iff k i).1 hi
    exact .inl ⟨i, hi, h, hh, by simpa using hl h hh (hf i hi h hh).1⟩
  · next ha =>
    exact fun i hi h hh => (hf i hi h hh).2 (by simpa using ha)

/-- A landed event: the group arrives, or a member has yet to land. -/
theorem State.RigBut.landedEvent (hs : s.RigBut (· ≠ k)) (hf : s.MembersFit k) (hm : (s.group k).state = .moving) :
    (s.landedEvent k).Rig := by
  by_cases hl : (s.group k).arrived = true ∧ s.allLanded k = true
  · unfold State.landedEvent
    rw [if_pos ⟨hm, hl.1, hl.2⟩]
    have ht := hs.arrive hm hl.2
    dsimp only
    split
    · exact (State.startAll_chain _ _).rig ht
    · exact ht
  · exact (s.landedEvent_chain k).rig (hs.whole (hf.unlanded hs.members hm hl))

/-- The events of a member that may have landed last, taken by its group. -/
theorem State.RigBut.takeEvents {e : MemberEvents} (hs : s.RigBut (· ≠ e.group)) (hf : s.MembersFit e.group)
    (hst : (s.group e.group).state = .stopping → s.MemberStatesOk e.group)
    (hl : e.landed = false → s.MemberStatesOk e.group) : (s.takeEvents e).Rig := by
  by_cases hm : (s.group e.group).state = .moving
  · cases hc : e.condition with
    | some c =>
      have ht : (s.conditionEvent e.group e.slot c.1 c.2).Rig := by
        unfold State.conditionEvent
        rw [hm]
        unfold State.MembersFit at hf
        rw [hm] at hf
        exact hs.stop hm (fun i hi h hh => .inl (hf i hi h hh).1) ..
      unfold State.takeEvents
      rw [hc]
      dsimp only
      split
      · exact (State.landedEvent_chain ..).rig ht
      · exact ht
    | none =>
      unfold State.takeEvents
      rw [hc]
      dsimp only
      split
      · exact hs.landedEvent hf hm
      · next hn => exact hs.whole (hl (by simpa using hn))
  · exact (s.takeEvents_chain e).rig (hs.whole (hf.whole hm hst))

/-- The events of a member's evaluation, taken at once: those that could have waited, then a stop's completion (R81). -/
theorem State.handed_eq_takeEvents (hr : s.record i = some h) (hg : h.group = some k) (before after : Bool) :
    (s.handCondition i).handLanded (some k) before after =
      s.takeEvents ⟨k, i, s.detected k h, !before && after⟩ := by
  unfold State.handCondition State.takeEvents State.handLanded
  rw [hr]
  simp only [hg]
  cases s.detected k h <;> cases before <;> cases after <;> simp

/-- Events handed on in a rig that is whole. -/
theorem State.Rig.handed (hs : s.Rig) (i : Slot) (g : Option GroupId) (before after stopped : Bool) :
    (s.handed i g before after stopped).Rig := by
  have hc : (((s.handCondition i).handLanded g before after).handStopped g stopped).Rig :=
    State.GengChain.rig
      (((s.handCondition_chain i).trans (State.handLanded_chain ..)).trans (State.handStopped_chain ..)) hs
  unfold State.handed
  generalize ((s.handCondition i).handLanded g before after).handStopped g stopped = t at hc ⊢
  rcases t.jogProgress_cases i with e | ⟨-, cause, -, -, e⟩ <;> rw [e]
  · exact hc
  · exact hc.endJog cause

end Sys2Proof.Machine

/-! ## A STATUS reply keeps the rig -/

namespace Sys2Proof.Machine

variable {s t : State} {k : GroupId} {i : Slot} {h r : Hoist} {e : SlotEntry}

/-- The slot that a STATUS reply and its evaluation write together. -/
theorem State.evaluated_setSlot (s : State) (i : Slot) (e : SlotEntry) (r : Hoist) :
    ∃ e', (s.setSlot i e).evaluated i r = s.setSlot i e' ∧
      e'.record = some ((s.setSlot i e).evaluatedRecord r) := by
  refine ⟨_, State.setSlot_setSlot .., ?_⟩
  have := (s.setSlot i e).record_evaluated i r
  rw [State.evaluated, State.record_setSlot_self] at this
  exact this

/-- The count of free values does not matter to the rig. -/
theorem State.RigBut.withFree {p : GroupId → Prop} (hs : s.RigBut p) (n : Nat) :
    State.RigBut { s with freeCount := n } p := hs.of_eq rfl rfl rfl rfl rfl

/-- Events that wait where none waited before. -/
theorem State.RigBut.withEvents {p : GroupId → Prop} (hs : s.RigBut p) (hev : s.eventsWaiting = none) (n : Nat)
    (e : Option MemberEvents) : State.RigBut { s with freeCount := n, eventsWaiting := e } p := by
  refine hs.of_tables rfl rfl rfl (fun k _ hw => ?_) hs.estop id rfl rfl
  obtain ⟨e', he', -⟩ := hw
  rw [hev] at he'
  cases he'

/-- An evaluation that leaves the group in step with the record. -/
theorem State.Rig.evaluate (ht : (s.evaluated i r).Rig) (hr : s.record i = some r) (hev : s.eventsWaiting = none)
    (stopped : Bool) : (s.evaluate i stopped).Rig := by
  have hev' : (s.evaluated i r).eventsWaiting = none := hev
  rcases State.evaluate_cases hr stopped with ⟨-, e⟩ | ⟨ev, -, e | e⟩ <;> rw [e]
  · exact ht.handed ..
  · exact State.Rig.handed (ht.withFree _) ..
  · exact ht.withEvents hev' _ _

/-- The events of a moving member's evaluation, handed on at once. -/
theorem State.RigBut.handed_moving (ht : t.RigBut (· ≠ k)) (hf : t.MembersFit k) (hm : (t.group k).state = .moving)
    (hr : t.record i = some r) (hg : r.group = some k) (hs : r.state = .moving) {before after : Bool}
    (hl : before = false ∧ after = true) : (t.handed i (some k) before after false).Rig := by
  have hst : ∀ u : State, u.handStopped (some k) false = u := fun u => by simp [State.handStopped]
  rw [State.handed_of_ne (fun v hv => by cases hr.symm.trans hv; simp [hs]), hst, State.handed_eq_takeEvents hr hg]
  refine State.RigBut.takeEvents (e := ⟨k, i, t.detected k r, !before && after⟩) ht hf (fun e => ?_) (fun e => ?_)
  · rw [hm] at e; cases e
  · simp [hl.1, hl.2] at e

/-- A moving member lands: the group takes it, or its landed event waits (R81, R82, log 27). -/
theorem State.RigBut.evaluate_landing (ht : (s.evaluated i r).RigBut (· ≠ k)) (hf : (s.evaluated i r).MembersFit k)
    (hm : (s.group k).state = .moving) (hr : s.record i = some r) (hg : r.group = some k) (hs : r.state = .moving)
    (hev : s.eventsWaiting = none) (hl : r.landed = false ∧ (s.evaluation r).hoist.landed = true) :
    (s.evaluate i false).Rig := by
  have hr' := s.record_evaluated i r
  have hg' : (s.evaluatedRecord r).group = some k := (s.group_evaluatedRecord r).trans hg
  have hs' : (s.evaluatedRecord r).state = .moving := (s.state_evaluatedRecord r).trans hs
  have hm' : ((s.evaluated i r).group k).state = .moving := hm
  have hev' : (s.evaluated i r).eventsWaiting = none := hev
  have hland : (s.evaluatedRecord r).landed = (s.evaluation r).hoist.landed := rfl
  have he := State.evaluate_cases hr false
  dsimp only at he
  rw [hg] at he
  generalize s.evaluated i r = t at *
  rcases he with ⟨-, e⟩ | ⟨ev, he, e | e⟩ <;> rw [e]
  · exact ht.handed_moving hf hm' hr' hg' hs' hl
  · have hu := ht.withFree (t.freeCount + 1)
    exact hu.handed_moving (k := k) hf hm' hr' hg' hs' hl
  · obtain ⟨v, k', hv, -, hgv, rfl⟩ := State.movingEvents_some he
    cases hr'.symm.trans hv
    cases hg'.symm.trans hgv
    refine (ht.withEvents hev' _ _).whole ?_
    unfold State.MembersFit at hf
    rw [hm'] at hf
    unfold State.MemberStatesOk
    split
    case h_4 =>
      refine ⟨fun j hj v hv => (hf j hj v hv).1, ?_⟩
      split
      · refine .inr ⟨_, rfl, rfl, ?_⟩
        rw [hland, hl.1, hl.2]
        rfl
      · next ha => exact fun j hj v hv => (hf j hj v hv).2 (Bool.eq_false_iff.2 ha)
    all_goals
      next e =>
        have e := hm'.symm.trans e
        cases e

/-- The last member that its group waits for comes to rest (R17, R113). -/
theorem State.RigBut.evaluate_stopped (ht : (s.evaluated i r).RigBut (· ≠ k)) (hf : (s.evaluated i r).MembersFit k)
    (hm : (s.group k).state = .stopping) (hr : s.record i = some r) (hg : r.group = some k) (hs : r.state = .ready) :
    (s.evaluate i true).Rig := by
  have hr' := s.record_evaluated i r
  have hg' : (s.evaluatedRecord r).group = some k := (s.group_evaluatedRecord r).trans hg
  have hs' : (s.evaluatedRecord r).state = .ready := (s.state_evaluatedRecord r).trans hs
  have hm' : ((s.evaluated i r).group k).state = .stopping := hm
  rcases State.evaluate_cases hr true with ⟨-, e⟩ | ⟨ev, he, -⟩
  · have hl : (s.evaluation r).hoist.landed = r.landed := State.landed_evaluation (by simp [hs])
    rw [e, hg, hl, State.handed_of_ne (fun v hv => by cases hr'.symm.trans hv; simp [hs'])]
    have hc : (s.evaluated i r).handCondition i = s.evaluated i r := by
      unfold State.handCondition
      rw [hr']
      simp only [hg']
      split
      · rfl
      · unfold State.conditionEvent
        rw [hm']
    have hland : ∀ u : State, u.handLanded (some k) r.landed r.landed = u := fun u => by
      unfold State.handLanded
      cases r.landed <;> rfl
    rw [hc, hland]
    unfold State.MembersFit at hf
    rw [hm'] at hf
    exact ht.testStop hm' hf
  · obtain ⟨v, -, hv, hmv, -⟩ := State.movingEvents_some he
    cases hr'.symm.trans hv
    rw [hs'] at hmv
    cases hmv

end Sys2Proof.Machine

/-! ## The profile step of one group, and why no command ends in a fault -/

namespace Sys2Proof.Machine

variable {g g' : Group} {k : GroupId} {dir : Travel} {reference : Int}

theorem head_retargetHead (target : Nat) (g : Group) :
    (retargetHead target g.queue).head? = g.head.map fun c => { c with target := target } := by
  cases hq : g.queue <;> simp [retargetHead, Group.head, hq]

theorem nextSpeed_le {v cruise : Nat} (hv : v ≤ cruise) (accel dt r : Nat) : nextSpeed v accel dt cruise r ≤ cruise := by
  unfold nextSpeed speedFloor
  split <;> omega

/-- A reference that moves less than the distance to the target stays short of it (R61). -/
theorem strictlyAhead_advance {target : Int} {d : Nat} (h : strictlyAhead dir target reference = true)
    (hd : d < (target - reference).natAbs) : strictlyAhead dir target (advance dir reference d) = true := by
  cases dir <;> simp only [strictlyAhead, advance, decide_eq_true_eq] at h ⊢ <;> exact decide_eq_true (by omega)

theorem atOrBeyond_advance {start : Int} (h : atOrBeyond dir reference start = true) (d : Nat) :
    atOrBeyond dir (advance dir reference d) start = true := by
  cases dir <;> simp only [atOrBeyond, advance, decide_eq_true_eq] at h ⊢ <;> exact decide_eq_true (by omega)

/-- A group in the middle of its profile: its step timer runs, and what a profile step reads is there. -/
structure Group.Profiles (g : Group) (k : GroupId) (dir : Travel) (reference : Int) (cue : Cue) (cruise : Nat) : Prop where
  ok : g.Ok k
  moving : g.state = .moving
  arrived : g.arrived = false
  direction : g.direction = some dir
  reference : g.reference = some reference
  head : g.head = some cue
  cruise : g.cruise = some cruise

/-- Where the step timer runs, the profile is there (R30, R53). -/
theorem Group.Ok.profiles (h : g.Ok k) (ht : g.stepTimer.isSome) :
    ∃ dir reference cue cruise, g.Profiles k dir reference cue cruise := by
  have hk := h
  obtain ⟨-, ⟨-, -, hq⟩, ⟨hstep, -⟩, ⟨hm, hs, -⟩, -⟩ := h
  obtain ⟨hmv, harr⟩ := hstep.1 ht
  obtain ⟨hdir, hcr⟩ := hm (.inr hmv)
  obtain ⟨-, href, -⟩ := hs hmv
  obtain ⟨dir, hdir⟩ := Option.isSome_iff_exists.1 hdir
  obtain ⟨cruise, hcr⟩ := Option.isSome_iff_exists.1 hcr
  obtain ⟨reference, href⟩ := Option.isSome_iff_exists.1 href
  obtain ⟨cue, rest, hc⟩ := List.exists_cons_of_ne_nil (hq (.inr hmv))
  exact ⟨dir, reference, cue, cruise, hk, hmv, harr, hdir, href, by simp [Group.head, hc], hcr⟩

namespace Group.Profiles
variable {cue : Cue} {cruise : Nat}

/-- The reference is short of the head cue's target, and not behind its start (R61). -/
theorem between (h : g.Profiles k dir reference cue cruise) :
    strictlyAhead dir ((cue.target : Int) * 1000) reference = true ∧
      ∀ st ∈ g.startRef, atOrBeyond dir reference st = true := by
  obtain ⟨⟨-, -, -, ⟨-, hs, -⟩, hr, -⟩, hmv, harr, hdir, href, hhd, -⟩ := h
  obtain ⟨hst, -, -⟩ := hs hmv
  obtain ⟨st, hst⟩ := Option.isSome_iff_exists.1 hst
  have := hr hmv dir hdir reference href st hst cue hhd
  rw [harr, if_neg (by simp)] at this
  exact ⟨this.1, fun st' h' => by cases hst.symm.trans h'; exact this.2⟩

/-- A target that is latched keeps the profile (R63). -/
theorem latch (h : g.Profiles k dir reference cue cruise) {target : Nat} (ht : g.stagedTarget = some target)
    (ha : strictlyAhead dir ((target : Int) * 1000) reference = true) (slowest : Option Nat) :
    ∃ v, (g.latch target slowest).Profiles k dir reference { cue with target := target } v := by
  obtain ⟨-, hback⟩ := h.between
  obtain ⟨⟨h1, ⟨q1, q2, q3⟩, h3, h4, h5, h6⟩, hmv, harr, hdir, href, hhd, hcr⟩ := h
  have hm := h4
  simp only [Group.MoveOk, hmv, hcr, ht] at hm
  have hq : (retargetHead target g.queue).length ≤ 4 ∧ (∀ c ∈ retargetHead target g.queue, c.Ok k) ∧
      retargetHead target g.queue ≠ [] := by
    obtain ⟨rest, hc⟩ : ∃ rest, g.queue = cue :: rest := List.head?_eq_some_iff.1 hhd
    rw [hc] at q1 q2
    have hcue := q2 cue (by simp)
    rw [hc]
    refine ⟨q1, fun c hc => ?_, by simp [retargetHead]⟩
    rcases List.mem_cons.1 hc with rfl | hc
    · simp_all [Cue.Ok]
    · exact q2 c (List.mem_cons_of_mem _ hc)
  have hhead := head_retargetHead target g
  rw [hhd] at hhead
  have href' : ∀ g' : Group, g'.direction = g.direction → g'.reference = g.reference → g'.startRef = g.startRef →
      g'.arrived = g.arrived → g'.head = some { cue with target := target } → g'.ReferenceOk := by
    intro g' e1 e2 e3 e4 e5 _ d hd r hr st hst c hc
    cases hdir.symm.trans (e1.symm.trans hd)
    cases href.symm.trans (e2.symm.trans hr)
    cases e5.symm.trans hc
    rw [e4, harr, if_neg (by simp)]
    exact ⟨ha, hback st (e3.symm.trans hst)⟩
  unfold Group.latch
  split
  · next hs =>
    refine ⟨cruise, ⟨h1, ⟨hq.1, hq.2.1, fun _ => hq.2.2⟩, h3, ?_, ?_, h6⟩, hmv, harr, hdir, href, hhead, hcr⟩
    · simp_all [Group.MoveOk]
    · exact href' _ rfl rfl rfl rfl hhead
  · next v hs =>
    refine ⟨v * 1000, ⟨h1, ⟨hq.1, hq.2.1, fun _ => hq.2.2⟩, h3, ?_, ?_, h6⟩, hmv, harr, hdir, href, hhead, rfl⟩
    · simp_all [Group.MoveOk]
      omega
    · exact href' _ rfl rfl rfl rfl hhead

/-- A staged target discarded late keeps the profile (R64). -/
theorem discardLate (h : g.Profiles k dir reference cue cruise) : g.discardLate.Profiles k dir reference cue cruise := by
  obtain ⟨⟨h1, h2, h3, h4, h5, h6⟩, hmv, harr, hdir, href, hhd, hcr⟩ := h
  exact ⟨⟨h1, h2, h3, by simp_all [Group.MoveOk, Group.discardLate], h5, h6⟩, hmv, harr, hdir, href, hhd, hcr⟩

/-- The test of a staged target keeps the profile (R63 to R65). -/
theorem applyStaging (h : g.Profiles k dir reference cue cruise) (slowest : Option Nat) :
    ∃ cue' v, (g.applyStaging dir reference slowest).Profiles k dir reference cue' v := by
  unfold Group.applyStaging
  split
  · exact ⟨cue, cruise, h⟩
  · next t ht =>
    split
    · next ha =>
      obtain ⟨v, hv⟩ := h.latch ht ha slowest
      exact ⟨_, v, hv⟩
    · exact ⟨cue, cruise, h.discardLate⟩

/-- The advance of the reference, up to the target or onto it (R58 to R61). -/
theorem advanceStep (h : g.Profiles k dir reference cue cruise) : (g.advanceStep dir reference cue cruise).Ok k := by
  obtain ⟨hahead, hback⟩ := h.between
  obtain ⟨⟨h1, h2, h3, h4, h5, h6⟩, hmv, harr, hdir, href, hhd, hcr⟩ := h
  simp only [Group.MoveOk, hmv, hcr] at h4
  simp only [Group.TimersOk, hmv, harr] at h3
  unfold Group.advanceStep
  dsimp only
  split
  · refine ⟨h1, h2, ?_, ?_, ?_, h6⟩
    · simp_all [Group.TimersOk]
    · simp_all [Group.MoveOk]
    · intro _ d _ r hr st _ c hc
      cases hhd.symm.trans hc
      exact (Option.some.inj hr).symm
  · next hd =>
    have hv : g.refSpeed ≤ cruise := (h4.2.2.2.2.2.1 cruise rfl).1
    refine ⟨h1, h2, ?_, ?_, ?_, h6⟩
    · simp_all [Group.TimersOk]
    · have := nextSpeed_le hv cue.accel g.settings.stepPeriod ((cue.target : Int) * 1000 - reference).natAbs
      simp_all [Group.MoveOk]
      omega
    · intro _ d hd' r hr st hst c hc
      cases hhd.symm.trans hc
      cases hdir.symm.trans hd'
      cases hr
      dsimp only
      rw [harr, if_neg (by simp)]
      exact ⟨strictlyAhead_advance hahead (Nat.lt_of_not_le hd), atOrBeyond_advance (hback st hst) _⟩

end Group.Profiles

@[simp] theorem Group.state_advanceStep (g : Group) (dir : Travel) (reference : Int) (cue : Cue) (cruise : Nat) :
    (g.advanceStep dir reference cue cruise).state = g.state := by
  unfold Group.advanceStep
  dsimp only
  split <;> rfl

@[simp] theorem Group.members_advanceStep (g : Group) (dir : Travel) (reference : Int) (cue : Cue) (cruise : Nat) :
    (g.advanceStep dir reference cue cruise).members = g.members := by
  unfold Group.advanceStep
  dsimp only
  split <;> rfl

@[simp] theorem Group.members_applyStaging (g : Group) (dir : Travel) (reference : Int) (slowest : Option Nat) :
    (g.applyStaging dir reference slowest).members = g.members := by
  unfold Group.applyStaging Group.latch
  split
  · rfl
  · split
    · split <;> rfl
    · rfl

/-- A profile step gives a group of the same kind, with its laws kept (R57). -/
theorem Group.Ok.profileStep (h : g.Ok k) (ht : g.stepTimer.isSome) (slowest : Option Nat) :
    ∃ g', g.profileStep slowest = some g' ∧ g'.Ok k ∧ g'.state = .moving ∧ g'.members = g.members := by
  obtain ⟨dir, reference, cue, cruise, hp⟩ := h.profiles ht
  obtain ⟨cue', v, hp'⟩ := hp.applyStaging slowest
  refine ⟨_, ?_, hp'.advanceStep, by simp [hp'.moving], by simp⟩
  simp only [Group.profileStep, hp.direction, hp.reference, hp'.head, hp'.cruise]

/-- Only a step expiry without a profile would end in a fault. -/
theorem exec_of_steps {s : State} (h : ∀ k, (s.takeStepExpiry k).isSome = true) (i : Instr) : ∃ t, exec i s = .next t := by
  cases i with
  | stepTimerExpiry k =>
    obtain ⟨t, ht⟩ := Option.isSome_iff_exists.1 (h k)
    exact ⟨t.repace, by simp only [exec, execStepTimerExpiry, ht, complete]⟩
  | _ => exact ⟨_, rfl⟩

/-- A group that keeps its laws has its step expiry (R57). -/
theorem State.GroupsOk.steps {s : State} (h : s.GroupsOk) (k : GroupId) : (s.takeStepExpiry k).isSome = true := by
  unfold State.takeStepExpiry
  split
  · next ht =>
    obtain ⟨g', hg, -⟩ := (h k).profileStep ht (s.minRatedSpeed k)
    simp [hg]
  · rfl

/-- Settles O6: of all commands only a step expiry without a profile faults, and the group laws exclude it. -/
theorem invariantStateRuns : Obligations.InvariantStateRuns := by
  unfold Obligations.InvariantStateRuns
  intro s hs
  unfold State.Runs step
  split
  · exact ⟨_, rfl⟩
  · next c rest _ =>
    have hg : State.GroupsOk { s with pending := rest } := hs.groups
    exact exec_of_steps hg.steps c

end Sys2Proof.Machine

/-! ## A STATUS reply keeps the rig (R13, R71, R152) -/

namespace Sys2Proof.Machine

variable {s : State} {k : GroupId} {i : Slot} {h r : Hoist} {e : SlotEntry}

/-- A member that has landed stays landed, and lands only in a group that has arrived (R82). -/
theorem State.landed_evaluation_moving (s : State) (hm : h.state = .moving) :
    (h.landed = true → (s.evaluation h).hoist.landed = true) ∧
      (h.landed = false → (s.evaluation h).hoist.landed = true → ∃ k, h.group = some k ∧ (s.group k).arrived = true) := by
  unfold State.evaluation
  rw [hm]
  dsimp only
  split
  · next k hk =>
    unfold Hoist.evaluateMoving
    split
    · refine ⟨fun e => by simp [Hoist.track, e], fun e hl => ⟨k, hk, ?_⟩⟩
      simp only [Hoist.track, e, Bool.false_or, Bool.and_eq_true] at hl
      exact hl.1
    · exact ⟨id, fun e hl => absurd hl (by simp [Hoist.evaluateAtRest, e])⟩
  · exact ⟨id, fun e hl => absurd hl (by simp [Hoist.evaluateAtRest, e])⟩

/-- What a STATUS reply and its evaluation leave of the record that they write. -/
structure State.Replied (s : State) (h r : Hoist) : Prop where
  ok : r.Ok s.link.lossThreshold
  group : r.group = h.group
  height : r.height.isSome = true
  demand : s.safety.permit = false → r.demand = 0

/-- The record that a STATUS reply writes, evaluated in a state with the same groups and lines. -/
theorem State.Rig.replied (hs : s.Rig) (hr : s.record i = some h) (ha : h.state ≠ .admitting) (flags : Byte) {height : Nat}
    (hh : height ≤ 500000) (load : Nat) (e : SlotEntry) :
    s.Replied h ((s.setSlot i e).evaluatedRecord (h.replied flags height load (s.lostTo h))) := by
  have hst : (h.replied flags height load (s.lostTo h)).state ≠ .admitting ∧
      (h.replied flags height load (s.lostTo h)).state ≠ .lost := by
    rw [Hoist.state_replied]
    cases hs : h.state
    case stopping => dsimp only; split <;> simp
    case lost => rcases s.lostTo_cases h with e | e <;> simp [e]
    case admitting => exact absurd hs ha
    all_goals simp
  obtain ⟨h1, h2⟩ := hst
  have hok := (hs.records i h hr).replied flags load hh ha (lostTo := s.lostTo h) (s.lostTo_cases h)
  obtain ⟨-, hd⟩ := (s.setSlot i e).motion_evaluation hok
  refine ⟨hok.evaluated _ h1 h2 rfl, State.group_evaluatedRecord .., ?_, fun hp => hd hp (hs.powerless hp i h hr).1⟩
  rw [State.evaluatedRecord, State.evaluation_fields]
  rfl

/-- A record that stays in its state is evaluated. -/
theorem State.Rig.evaluate_same (hs : s.Rig) (hr : s.record i = some h) (he : e.record = some r)
    (hev : s.eventsWaiting = none)
    (hp : s.Replied h ((s.setSlot i e).evaluatedRecord r)) (hst : r.state = h.state) (hl : r.landed = h.landed) :
    ((s.setSlot i e).evaluate i false).Rig := by
  have hr1 : (s.setSlot i e).record i = some r := by rw [State.record_setSlot_self, he]
  obtain ⟨e', heq, he'⟩ := s.evaluated_setSlot i e r
  have hst2 : ((s.setSlot i e).evaluatedRecord r).state = h.state := (State.state_evaluatedRecord ..).trans hst
  have hg : r.group = h.group := (State.group_evaluatedRecord (s.setSlot i e) r).symm.trans hp.group
  by_cases hland : h.state = .moving ∧ h.landed = false ∧ ((s.setSlot i e).evaluation r).hoist.landed = true
  · obtain ⟨hm, hb, ha⟩ := hland
    obtain ⟨-, harr⟩ := (s.setSlot i e).landed_evaluation_moving (hst.trans hm)
    obtain ⟨k, hk, hka⟩ := harr (hl.trans hb) ha
    have hgk : (s.group k).state = .moving := by
      have := hs.member hr (hg.symm.trans hk)
      cases hgs : (s.group k).state <;> simp_all
    have hbut : (s.setSlot i e').RigBut (· ≠ k) :=
      (hs.setRecord hr he' hp.group hp.ok (fun _ => by rw [hp.group, ← hg, hk]; rfl) hp.demand
        (by rw [hst2])).only (hg.symm.trans hk)
    refine State.RigBut.evaluate_landing (k := k) (heq ▸ hbut) ?_ hgk hr1 hk (hst.trans hm) hev ⟨hl.trans hb, ha⟩
    rw [heq]
    unfold State.MembersFit
    rw [State.group_setSlot, hgk]
    have hka : (s.group k).arrived = true := hka
    refine hs.everyMember_setSlot he' ⟨hst2.trans hm, fun e => ?_⟩ fun j v hv hvk => ?_
    · rw [hka] at e
      cases e
    · have := hs.member hv hvk
      rw [hgk] at this
      exact this
  · refine State.Rig.evaluate (r := r) ?_ hr1 hev false
    rw [heq]
    refine hs.setSame hr he' hp.group hp.ok hst2 ?_ (fun _ => hp.height) hp.demand
    show ((s.setSlot i e).evaluation r).hoist.landed = h.landed
    by_cases hm : h.state = .moving
    · cases hb : h.landed
      · exact Bool.eq_false_iff.2 fun ha => hland ⟨hm, hb, ha⟩
      · exact ((s.setSlot i e).landed_evaluation_moving (hst.trans hm)).1 (hl.trans hb)
    · rw [State.landed_evaluation (by rw [hst]; exact hm), hl]

/-- A record of a group at rest that comes to another state of rest is evaluated. -/
theorem State.Rig.evaluate_rest (hs : s.Rig) (hr : s.record i = some h) (he : e.record = some r)
    (hev : s.eventsWaiting = none)
    (hp : s.Replied h ((s.setSlot i e).evaluatedRecord r)) (hm : r.state ≠ .moving) (hj : r.state ≠ .jogging)
    (hj' : h.state ≠ .jogging) (hk : ∀ k, h.group = some k → (s.group k).state = .idle ∨ (s.group k).state = .faulted)
    (stopped : Bool) : ((s.setSlot i e).evaluate i stopped).Rig := by
  have hr1 : (s.setSlot i e).record i = some r := by rw [State.record_setSlot_self, he]
  obtain ⟨e', heq, he'⟩ := s.evaluated_setSlot i e r
  refine State.Rig.evaluate (r := r) ?_ hr1 hev stopped
  rw [heq]
  refine hs.setAtRest hr he' hp.group hp.ok ?_ hp.demand ?_ hk <;> rw [State.state_evaluatedRecord]
  · exact hm
  · simp [hj, hj']

/-- A member of a stopping group whose reply lets it wait, or end its waiting, is evaluated (R17, R20). -/
theorem State.Rig.evaluate_stopping (hs : s.Rig) (hr : s.record i = some h) (he : e.record = some r)
    (hev : s.eventsWaiting = none) (hp : s.Replied h ((s.setSlot i e).evaluatedRecord r)) (hg : h.group = some k)
    (hk : (s.group k).state = .stopping) {stopped : Bool}
    (hst : stopped = true ∧ r.state = .ready ∨ h.state = .lost ∧ r.state = .stopping) (hj : h.state ≠ .jogging) :
    ((s.setSlot i e).evaluate i stopped).Rig := by
  have hr1 : (s.setSlot i e).record i = some r := by rw [State.record_setSlot_self, he]
  obtain ⟨e', heq, he'⟩ := s.evaluated_setSlot i e r
  have hst2 : ((s.setSlot i e).evaluatedRecord r).state = r.state := State.state_evaluatedRecord ..
  have hrs : r.state = .ready ∨ r.state = .stopping := hst.imp (·.2) (·.2)
  have hrg : r.group = some k := ((State.group_evaluatedRecord (s.setSlot i e) r).symm.trans hp.group).trans hg
  have hbut : (s.setSlot i e').RigBut (· ≠ k) :=
    (hs.setRecord hr he' hp.group hp.ok (fun e => by rw [hst2] at e; simp [e] at hrs) hp.demand
      (by rw [hst2]; rcases hrs with e | e <;> simp [e, hj])).only hg
  have hevery : (s.setSlot i e').EveryMember k fun h => h.state = .ready ∨ h.state = .stopping ∨ h.state = .lost := by
    refine hs.everyMember_setSlot he' ?_ fun j v hv hvk => ?_
    · rw [hst2]
      exact hrs.imp_right .inl
    · have := hs.member hv hvk
      rw [hk] at this
      exact this
  rcases hst with ⟨rfl, hready⟩ | ⟨hlost, hstop⟩
  · refine State.RigBut.evaluate_stopped (k := k) (heq ▸ hbut) ?_ hk hr1 hrg hready
    rw [heq]
    unfold State.MembersFit
    rw [State.group_setSlot, hk]
    exact hevery
  · refine State.Rig.evaluate (r := r) ?_ hr1 hev stopped
    rw [heq]
    refine hbut.whole ?_
    unfold State.MemberStatesOk
    rw [State.group_setSlot, hk]
    have hi : i ∈ (s.group k).members := (hs.members.mem_iff k i).2 ⟨h, hr, hg⟩
    exact ⟨hevery, i, hi, _, (State.record_setSlot_self ..).trans he', hst2.trans hstop⟩

/-- A STATUS reply of a record that stays in its slot keeps the rig. -/
theorem State.Rig.takeStatus (hs : s.Rig) (hr : s.record i = some h) (ha : h.state ≠ .admitting)
    (hev : s.eventsWaiting = none) (flags : Byte) {height : Nat} (hh : height ≤ 500000) (load : Nat)
    (hn : ¬ (h.state = .retiring ∧ flags.getLsbD 7 = true)) : (s.takeStatus i flags height load).Rig := by
  rw [State.takeStatus_eq hr flags height load hn]
  have hp := hs.replied hr ha flags hh load ((s.slot i).replied h flags height load (s.lostTo h))
  have he : ((s.slot i).replied h flags height load (s.lostTo h)).record =
      some (h.replied flags height load (s.lostTo h)) := rfl
  generalize (s.slot i).replied h flags height load (s.lostTo h) = e at hp he
  have hst := Hoist.state_replied h flags height load (s.lostTo h)
  have hl : (h.replied flags height load (s.lostTo h)).landed = h.landed := rfl
  generalize h.replied flags height load (s.lostTo h) = r at hp he hst hl
  by_cases hsame : r.state = h.state
  · have hstopped : ¬ (h.state = .stopping ∧ flags.getLsbD 7 = true ∧ flags.getLsbD 6 = false) := by
      rintro ⟨e1, e2⟩
      rw [e1] at hst
      rw [if_pos e2] at hst
      rw [hst, e1] at hsame
      cases hsame
    rw [decide_eq_false hstopped]
    exact hs.evaluate_same hr he hev hp hsame hl
  · have hfrom : h.state = .stopping ∧ r.state = .ready ∧ flags.getLsbD 7 = true ∧ flags.getLsbD 6 = false ∨
        h.state = .lost ∧ r.state = s.lostTo h := by
      cases hh : h.state <;> rw [hh] at hst hsame
      case stopping =>
        dsimp only at hst
        split at hst
        · next e => exact .inl ⟨rfl, hst, e⟩
        · exact absurd hst hsame
      case lost => exact .inr ⟨rfl, hst⟩
      all_goals exact absurd hst hsame
    have hj : h.state ≠ .jogging := by rcases hfrom with ⟨e, -⟩ | ⟨e, -⟩ <;> simp [e]
    have hrest : r.state ≠ .moving ∧ r.state ≠ .jogging := by
      rcases hfrom with ⟨-, e, -⟩ | ⟨-, e⟩
      · simp [e]
      · rcases s.lostTo_cases h with e' | e' <;> simp [e, e']
    by_cases hk : ∃ k, h.group = some k ∧ (s.group k).state = .stopping
    · obtain ⟨k, hg, hk⟩ := hk
      refine hs.evaluate_stopping hr he hev hp hg hk ?_ hj
      rcases hfrom with ⟨e1, e2, e3⟩ | ⟨e1, e2⟩
      · exact .inl ⟨decide_eq_true ⟨e1, e3⟩, e2⟩
      · refine .inr ⟨e1, e2.trans ?_⟩
        rw [State.lostTo, if_pos ⟨k, hg, hk⟩]
    · refine hs.evaluate_rest hr he hev hp hrest.1 hrest.2 hj (fun k hg => ?_) _
      have hm := hs.member hr hg
      have hnk : (s.group k).state ≠ .stopping := fun e => hk ⟨k, hg, e⟩
      cases hgs : (s.group k).state <;> rw [hgs] at hm hnk <;>
        rcases hfrom with ⟨e, -⟩ | ⟨e, -⟩ <;> simp_all

end Sys2Proof.Machine

/-! ## The rounds, the deliveries and the rig -/

namespace Sys2Proof.Machine

variable {s t : State} {k : GroupId} {i : Slot} {h r : Hoist} {p : GroupId → Prop}

theorem State.RigBut.modLink (hs : s.RigBut p) {f : Link → Link} (hf : (f s.link).lossThreshold = s.link.lossThreshold) :
    (s.modLink f).RigBut p := hs.of_eq rfl rfl hf rfl rfl

theorem State.Rig.completeRound (hs : s.Rig) : s.completeRound.Rig := by
  have ht := s.settleRounds_chain.rig hs
  unfold State.completeRound State.decideRound
  generalize s.settleRounds = t at ht ⊢
  refine ht.modLink ?_
  split <;> rfl

theorem State.Rig.completeIfDone (hs : s.Rig) : s.completeIfDone.Rig := by
  unfold State.completeIfDone
  split
  · exact hs.completeRound
  · exact hs

theorem State.Rig.completeIdleRound (hs : s.Rig) : s.completeIdleRound.Rig := by
  unfold State.completeIdleRound
  split
  · exact hs.completeIfDone
  · exact hs

theorem State.Rig.endPoll (hs : s.Rig) (i : Slot) (rest : Nat) : (s.endPoll i rest).Rig := by
  have ht : (s.modLink fun l => (l.endExchange rest).shutPoll i).Rig := hs.modLink rfl
  unfold State.endPoll
  dsimp only
  split
  · exact ht
  · exact ht.completeIfDone

theorem State.Rig.closePoll (hs : s.Rig) (i : Slot) : (s.closePoll i).Rig := by
  have ht : (s.modLink fun l => l.shutPoll i).Rig := hs.modLink rfl
  exact ht.completeIfDone

theorem Link.lossThreshold_abortLine (l : Link) (q : PollInFlight) : (l.abortLine q).lossThreshold = l.lossThreshold := by
  unfold Link.abortLine
  split
  · split <;> rfl
  all_goals rfl

theorem Link.lossThreshold_oweHalt (l : Link) : l.oweHalt.lossThreshold = l.lossThreshold := by
  unfold Link.oweHalt
  split <;> rfl

theorem State.Rig.estopLink (hs : s.Rig) : s.estopLink.Rig := by
  unfold State.estopLink
  split
  · exact hs
  · split
    · next q _ =>
      have h1 : (s.modLink fun l => l.abortLine q).Rig := hs.modLink (Link.lossThreshold_abortLine ..)
      exact (h1.closePoll q.slot).modLink (Link.lossThreshold_oweHalt _)
    · exact hs.modLink (Link.lossThreshold_oweHalt _)

theorem State.Rig.takeDelivery (hs : s.Rig) : s.takeDelivery.Rig := by
  have ht : (s.deliverEstop s.linkFirst).Rig := by
    unfold State.deliverEstop
    split
    · exact s.estopLink.estopGroups_chain.rig hs.estopLink
    · exact (s.estopGroups_chain.rig hs).estopLink
  exact ht.withFree _

/-- Events that have waited are taken by a group that they find in step but for them. -/
theorem State.Rig.takeWaiting (hs : s.Rig) {e : MemberEvents} (he : s.eventsWaiting = some e) :
    (State.takeEvents { s with eventsWaiting := none } e).Rig := by
  let t : State := { s with eventsWaiting := none }
  have ht : t.RigBut (· ≠ e.group) := by
    refine (hs.but _).of_tables rfl rfl rfl (fun k hk hw => ?_) hs.estop id rfl rfl
    obtain ⟨e', he', hg, -⟩ := hw
    rw [he] at he'
    cases he'
    exact absurd hg.symm hk
  have hfit : t.MembersFit e.group := (hs.memberStates e.group trivial).fit
  have hms := hs.memberStates e.group trivial
  refine State.RigBut.takeEvents (s := t) ht hfit (fun hst => ?_) fun hl => ?_
  · unfold State.MemberStatesOk at hms ⊢
    have hst' : (s.group e.group).state = .stopping := hst
    rw [hst'] at hms
    rw [hst]
    exact hms
  · by_cases hm : (t.group e.group).state = .moving
    · have hm' : (s.group e.group).state = .moving := hm
      unfold State.MemberStatesOk at hms ⊢
      rw [hm'] at hms
      rw [hm]
      refine ⟨hms.1, ?_⟩
      have h2 := hms.2
      by_cases ha : (s.group e.group).arrived = true
      · rw [if_pos ha] at h2
        have ha' : (t.group e.group).arrived = true := ha
        rw [if_pos ha']
        refine .inl (h2.resolve_right ?_)
        rintro ⟨e', he', -, hl'⟩
        rw [he] at he'
        cases he'
        rw [hl] at hl'
        cases hl'
      · have ha' : ¬ (t.group e.group).arrived = true := ha
        rw [if_neg ha] at h2
        rw [if_neg ha']
        exact h2
    · refine hfit.whole hm fun hst => ?_
      have hst' : (s.group e.group).state = .stopping := hst
      unfold State.MemberStatesOk at hms ⊢
      rw [hst'] at hms
      rw [hst]
      exact hms

theorem State.Rig.deliverEvents (hs : s.Rig) : s.deliverEvents.Rig := by
  unfold State.deliverEvents
  split
  · next e he => exact (hs.takeWaiting he).completeIdleRound
  · exact hs

theorem State.Rig.leavePollList (hs : s.Rig) (i : Slot) : (s.leavePollList i).Rig := by
  unfold State.leavePollList
  have ht : (s.modLink fun l =>
      { l with
        pollList := removeSlot i l.pollList
        poll := l.poll.map fun p => if p.slot = i then { p with orphaned := true } else p }).Rig := hs.modLink rfl
  generalize s.modLink _ = t at ht ⊢
  dsimp only
  split
  · split
    · exact ht.modLink rfl
    · exact ht
  all_goals exact ht.completeIdleRound

theorem State.Rig.enterPollList (hs : s.Rig) (i : Slot) : (s.enterPollList i).Rig := by
  unfold State.enterPollList
  have ht : (s.modLink fun l => { l with pollList := insertSlot i l.pollList }).Rig := hs.modLink rfl
  dsimp only
  generalize s.modLink _ = t at ht ⊢
  split
  · have hu : t.startRound.Rig := ht.modLink rfl
    exact hu.modLink rfl
  · exact ht

end Sys2Proof.Machine

/-! ## Records that come and go, and the rig (R9, R22, R33, R34) -/

namespace Sys2Proof.Machine

variable {s t : State} {k : GroupId} {i : Slot} {h r : Hoist} {g : Group} {n : Nat}

/-! ### Groups that a member leaves or enters -/

theorem Group.Ok.dropMember (hg : g.Ok k) (hs : g.state.atRest = true) (i : Slot) : (g.dropMember i).Ok k := by
  unfold Group.dropMember
  dsimp only
  split
  · rw [GroupState.atRest_iff] at hs
    refine hg.rest (by rcases hs with e | e | e <;> simp [e]) rfl (.refl _) (.inl rfl) ⟨rfl, rfl, rfl, rfl⟩
      ⟨rfl, rfl, rfl, rfl⟩ rfl (Nat.le_refl _) ?_
    simp [Group.FaultOk, Group.becomeEmpty]
  · exact hg

theorem Group.Ok.addMember (hg : g.Ok k) (i : Slot) : (g.addMember i).Ok k := by
  by_cases hs : g.state = .empty
  · have hf := hg.faults
    have hst : (g.addMember i).state = .idle := by simp [Group.addMember, hs]
    have ht := hg.timers
    simp only [Group.TimersOk, hs] at ht
    refine hg.rest (by simp [hs]) rfl (.refl _) (.inr (.inl hst)) (by simpa [Group.addMember] using ht)
      ⟨rfl, rfl, rfl, rfl⟩ rfl (Nat.le_refl _) ?_
    simp only [Group.FaultOk, hs] at hf
    simp_all [Group.FaultOk, Group.addMember]
  · have : g.addMember i = { g with members := insertSlot i g.members } := by
      unfold Group.addMember
      cases hg : g.state <;> first | rfl | exact absurd hg hs
    rw [this]
    exact hg

theorem Group.state_dropMember (hs : g.state.atRest = true) (i : Slot) : (g.dropMember i).state.atRest = true := by
  unfold Group.dropMember
  dsimp only
  split
  · rfl
  · exact hs

theorem Group.members_dropMember (g : Group) (i : Slot) : (g.dropMember i).members = removeSlot i g.members := by
  unfold Group.dropMember
  dsimp only
  split <;> rfl

theorem Group.state_addMember (hs : g.state.atRest = true) (i : Slot) :
    (g.addMember i).state.atRest = true ∧ (g.addMember i).state ≠ .empty := by
  unfold Group.addMember
  rcases (GroupState.atRest_iff _).1 hs with e | e | e <;> simp [e, GroupState.atRest]

theorem Group.empty_dropMember (hs : g.state = .empty → g.members = []) (i : Slot) :
    (g.dropMember i).state = .empty ↔ removeSlot i g.members = [] := by
  unfold Group.dropMember
  dsimp only
  split
  · next e => simpa [Group.becomeEmpty] using e
  · next e =>
    have e : removeSlot i g.members ≠ [] := by simpa using e
    simp only [e, iff_false]
    intro hst
    rw [hs hst] at e
    exact e rfl

/-! ### The rig at rest -/

/-- One record changes, comes or goes, and with it the groups at rest that it leaves or enters. -/
theorem State.Rig.rewrite (hs : s.Rig) (hrec : ∀ j, i ≠ j → t.record j = s.record j)
    (hi : ∀ r ∈ t.record i, r.Ok s.link.lossThreshold ∧ r.demand = 0 ∧ r.state ≠ .moving ∧ r.state ≠ .jogging)
    (hj : ∀ h ∈ s.record i, h.state ≠ .jogging) (hm : t.MembersOk) (hg : t.GroupsOk)
    (hk : ∀ k, t.group k = s.group k ∧ i ∉ (s.group k).members ∨ (s.group k).state.atRest = true ∧
      (t.group k).state.atRest = true ∧ ∀ j ∈ (t.group k).members, j = i ∨ j ∈ (s.group k).members)
    (hl : t.link = s.link) (hev : t.eventsWaiting = s.eventsWaiting) (hsf : t.safety = s.safety) : t.Rig := by
  refine ⟨fun j r hr => ?_, hm, hg, fun k _ => ?_, fun j r hr hmv => ?_, hsf ▸ hs.estop, fun hp j r hr => ?_,
    ⟨fun j => ?_, hsf ▸ hs.jog.2⟩⟩
  · rw [hl]
    by_cases e : i = j
    · exact (hi r (e ▸ hr)).1
    · exact hs.records j r (hrec j e ▸ hr)
  · rcases hk k with ⟨hgk, hni⟩ | ⟨hsr, htr, hmem⟩
    · refine (hs.memberStates k trivial).congr (by rw [hgk]) (by rw [hgk]) (by rw [hgk]) (fun j hj => .inl (hrec j ?_))
        (by unfold State.LandedWaits; rw [hev]; exact id)
      rintro rfl
      exact hni hj
    · rcases (GroupState.atRest_iff _).1 htr with e | e
      · unfold State.MemberStatesOk
        rw [e]
        trivial
      · refine State.memberStates_atRest e fun j hjm r hr => ?_
        by_cases e : i = j
        · exact (hi r (e ▸ hr)).2.2.1
        · have hjs := (hmem j hjm).resolve_left fun e' => e e'.symm
          obtain ⟨h, hh, hhk⟩ := (hs.members.mem_iff k j).1 hjs
          have hmm := hs.member hh hhk
          cases (hrec j e ▸ hr).symm.trans hh
          rcases (GroupState.atRest_iff _).1 hsr with e | e | e <;> rw [e] at hmm
          · exact absurd hmm not_false
          all_goals exact hmm
  · by_cases e : i = j
    · exact absurd hmv (hi r (e ▸ hr)).2.2.1
    · exact hs.grouped j r (hrec j e ▸ hr) hmv
  · by_cases e : i = j
    · obtain ⟨-, h1, -, h2⟩ := hi r (e ▸ hr)
      exact ⟨h1, h2⟩
    · exact hs.powerless (hsf ▸ hp) j r (hrec j e ▸ hr)
  · rw [hsf, ← hs.jog.1 j]
    by_cases e : i = j
    · subst e
      have ht : t.hoistState i ≠ some .jogging := by
        unfold State.hoistState
        cases hr : t.record i with
        | none => simp
        | some r => simpa using (hi r hr).2.2.2
      have hs' : s.hoistState i ≠ some .jogging := by
        unfold State.hoistState
        cases hr : s.record i with
        | none => simp
        | some h => simpa using hj h hr
      simp [ht, hs']
    · rw [State.hoistState, hrec j e]
      rfl

/-- The member sets after one record has changed its group. -/
theorem State.MembersOk.rewrite (hs : s.MembersOk) (hrec : ∀ j, i ≠ j → t.record j = s.record j)
    (hg : ∀ k, (t.group k).members.Pairwise (· < ·) ∧
      (∀ j, j ∈ (t.group k).members ↔ if j = i then (t.record i).bind (·.group) = some k else j ∈ (s.group k).members) ∧
      ((t.group k).state = .empty ↔ (t.group k).members = [])) : t.MembersOk := fun k => by
  obtain ⟨h1, h2, h3⟩ := hg k
  refine ⟨ascending_ext h1 (t.pairwise_naming k) fun j => ?_, h3⟩
  rw [h2, State.mem_naming]
  split
  · next e => rw [e]
  · next e => rw [hrec j (Ne.symm e), (hs k).1, State.mem_naming]

theorem State.MembersOk.pairwise (hs : s.MembersOk) (k : GroupId) : (s.group k).members.Pairwise (· < ·) := by
  rw [(hs k).1]
  exact s.pairwise_naming k

/-- A record of no group comes or goes. -/
theorem State.Rig.rewriteFree (hs : s.Rig) (hrec : ∀ j, i ≠ j → t.record j = s.record j)
    (hi : ∀ r ∈ t.record i, r.Ok s.link.lossThreshold ∧ r.demand = 0 ∧ r.state ≠ .moving ∧ r.state ≠ .jogging ∧
      r.group = none)
    (hj : ∀ h ∈ s.record i, h.state ≠ .jogging ∧ h.group = none) (hgr : t.groups = s.groups)
    (hl : t.link = s.link) (hev : t.eventsWaiting = s.eventsWaiting) (hsf : t.safety = s.safety) : t.Rig := by
  have hg : ∀ k, t.group k = s.group k := fun k => by rw [State.group, hgr]; rfl
  have hni : ∀ k, i ∉ (s.group k).members := fun k hk => by
    obtain ⟨h, hh, hgk⟩ := (hs.members.mem_iff k i).1 hk
    rw [(hj h hh).2] at hgk
    cases hgk
  refine hs.rewrite hrec (fun r hr => ?_) (fun h hh => (hj h hh).1) (hs.members.rewrite hrec fun k => ?_)
    (fun k => hg k ▸ hs.groups k) (fun k => .inl ⟨hg k, hni k⟩) hl hev hsf
  · obtain ⟨h1, h2, h3, h4, -⟩ := hi r hr
    exact ⟨h1, h2, h3, h4⟩
  · rw [hg]
    refine ⟨hs.members.pairwise k, fun j => ?_, (hs.members k).2⟩
    split
    · next e =>
      subst e
      simp only [hni k, false_iff]
      cases hr : t.record j with
      | none => simp
      | some r => simp [(hi r hr).2.2.2.2]
    · rfl

/-- The demand of a record that neither moves nor jogs. -/
theorem Hoist.Ok.demand_rest (ho : h.Ok n) (hm : h.state ≠ .moving) (hj : h.state ≠ .jogging) : h.demand = 0 := by
  obtain ⟨-, hd, -⟩ := ho.motion
  by_contra hne
  exact (hd (Nat.pos_of_ne_zero hne)).elim hm hj

/-- A record that leaves its slot (R1, R143): it has no group and does not jog. -/
theorem State.Rig.leaveSlot (hs : s.Rig) (hr : s.record i = some h) (hj : h.state ≠ .jogging) (hg : h.group = none)
    (cause : Release) : (s.leaveSlot i h cause).Rig := by
  rw [State.leaveSlot_emptied]
  have ht : (s.emptied i h cause).Rig := by
    refine hs.rewriteFree (i := i) (fun j hij => ?_) (fun r hri => ?_) (fun v hv => ?_) rfl rfl rfl rfl
    · rw [State.record_emptied, if_neg hij]
    · rw [State.record_emptied, if_pos rfl] at hri
      cases hri
    · cases hr.symm.trans hv
      exact ⟨hj, hg⟩
  exact ht.leavePollList i

/-- The attention flag of a slot does not matter to the rig. -/
theorem State.Rig.slotAttention (hs : s.Rig) (i : Slot) : (s.slotAttention i).Rig := hs.setEntry rfl

theorem State.record_slotAttention (s : State) (i j : Slot) : (s.slotAttention i).record j = s.record j := by
  unfold State.slotAttention
  rw [State.modSlot_eq, State.record_setSlot]
  split
  · next e => subst e; rfl
  · rfl

theorem State.Rig.leaveSlotNoted (hs : s.Rig) (hr : s.record i = some h) (hj : h.state ≠ .jogging) (hg : h.group = none)
    (cause : Release) : (s.leaveSlotNoted i h cause).Rig :=
  (hs.slotAttention i).leaveSlot ((s.record_slotAttention i i).trans hr) hj hg cause

/-- A new record (R9). -/
theorem State.Rig.entered (hs : s.Rig) (hr : s.record i = none) (ho : h.Ok s.link.lossThreshold) (ha : h.state = .admitting)
    (hg : h.group = none) : (s.entered i h).Rig := by
  have hrec : ∀ j, State.record { s.setSlot i { s.slot i with record := some h, attention := false } with
      nodeMap := insertAddress h.address i s.nodeMap } j = if i = j then some h else s.record j := fun j => by
    show (s.setSlot i _).record j = _
    rw [State.record_setSlot]
  have ht : State.Rig { s.setSlot i { s.slot i with record := some h, attention := false } with
      nodeMap := insertAddress h.address i s.nodeMap } := by
    refine hs.rewriteFree (i := i) (fun j hij => ?_) (fun r hri => ?_) (fun v hv => ?_) rfl rfl rfl rfl
    · rw [hrec, if_neg hij]
    · rw [hrec, if_pos rfl] at hri
      cases hri
      exact ⟨ho, ho.demand_rest (by simp [ha]) (by simp [ha]), by simp [ha], by simp [ha], hg⟩
    · rw [hr] at hv
      cases hv
  exact ht.enterPollList i

theorem State.Rig.admitSlot (hs : s.Rig) (slot address : Byte) (lower upper trim : BitVec 16) :
    (s.admitSlot slot address lower upper trim).1.Rig := by
  rcases s.admitSlot_cases slot address lower upper trim with e | ⟨i, a, lo, up, tr, hr, -, h1, h2, hl, e⟩ <;> rw [e]
  · exact hs
  · exact hs.entered hr (Hoist.admitted_ok h1 h2 hl) rfl rfl

/-! ### Leaving and joining a group (R33) -/

theorem State.Rig.leaveGroup (hs : s.Rig) (hr : s.record i = some h)
    (hst : h.state = .ready ∨ h.state = .lost ∨ h.state = .admitting)
    (ha : s.groupAllows h GroupState.atRest = true) : (s.leaveGroup i).Rig ∧
      (s.leaveGroup i).record i = some { h with group := none } ∧ (s.leaveGroup i).link = s.link ∧
      ∀ k, (s.group k).state.atRest = true → ((s.leaveGroup i).group k).state.atRest = true := by
  unfold State.leaveGroup
  rw [hr, Option.bind_some]
  cases hg : h.group with
  | none =>
    refine ⟨hs, hr.trans ?_, rfl, fun _ => id⟩
    rw [← hg]
  | some k =>
    dsimp only
    have hk := (State.groupAllows_iff ..).1 ha k hg
    have hrec : ∀ j, ((s.modGroup k fun g => g.dropMember i).modRecord i fun h => { h with group := none }).record j =
        if i = j then some { h with group := none } else s.record j := fun j => by
      rw [State.modRecord_eq_setSlot (s := s.modGroup k fun g => g.dropMember i) hr, State.record_setSlot]
      rfl
    have hgrp : ∀ j, ((s.modGroup k fun g => g.dropMember i).modRecord i fun h => { h with group := none }).group j =
        if k = j then (s.group k).dropMember i else s.group j := fun j => by
      rw [State.group_modRecord, State.group_modGroup]
    have hjog : h.state ≠ .jogging := by rcases hst with e | e | e <;> simp [e]
    have hmov : h.state ≠ .moving := by rcases hst with e | e | e <;> simp [e]
    have hok := hs.records i h hr
    have hne : ∀ j, k ≠ j → i ∉ (s.group j).members := fun j hkj hi => by
      obtain ⟨v, hv, hvk⟩ := (hs.members.mem_iff j i).1 hi
      cases hr.symm.trans hv
      exact hkj (Option.some.inj (hg.symm.trans hvk))
    refine ⟨hs.rewrite (i := i) (fun j hij => by rw [hrec, if_neg hij]) (fun r hri => ?_) (fun v hv => ?_)
      (hs.members.rewrite (fun j hij => by rw [hrec, if_neg hij]) fun j => ?_) (fun j => ?_) (fun j => ?_) rfl rfl rfl,
      (hrec i).trans (if_pos rfl), rfl, fun j hj => ?_⟩
    · rw [hrec, if_pos rfl] at hri
      cases hri
      exact ⟨hok.regroup (.inl rfl), hok.demand_rest hmov hjog, hmov, hjog⟩
    · cases hr.symm.trans hv
      exact hjog
    · rw [hgrp, hrec, if_pos rfl]
      split
      · next e =>
        subst e
        rw [Group.members_dropMember]
        refine ⟨pairwise_removeSlot i (hs.members.pairwise k), fun j => ?_, Group.empty_dropMember (hs.members k).2.1 i⟩
        rw [mem_removeSlot]
        split
        · next e => simp [e]
        · next e => simp [e]
      · next e =>
        refine ⟨hs.members.pairwise j, fun j' => ?_, (hs.members j).2⟩
        split
        · next e' => subst e'; simp [hne j e]
        · rfl
    · rw [hgrp]
      split
      · next e => exact e ▸ (hs.groups k).dropMember hk i
      · exact hs.groups j
    · rw [hgrp]
      split
      · next e =>
        subst e
        refine .inr ⟨hk, Group.state_dropMember hk i, fun j hj => .inr ?_⟩
        rw [Group.members_dropMember, mem_removeSlot] at hj
        exact hj.1
      · next e => exact .inl ⟨rfl, hne j e⟩
    · rw [hgrp]
      split
      · next e => exact Group.state_dropMember hk i
      · exact hj

theorem State.Rig.joinGroup (hs : s.Rig) (hr : s.record i = some h) (hg : h.group = none)
    (hst : h.state = .ready ∨ h.state = .lost) (hk : (s.group k).state.atRest = true) : (s.joinGroup i k).Rig := by
  have hrec : ∀ j, (s.joinGroup i k).record j = if i = j then some { h with group := some k } else s.record j := fun j => by
    show (s.modRecord i _).record j = _
    rw [State.modRecord_eq_setSlot hr, State.record_setSlot]
  have hgrp : ∀ j, (s.joinGroup i k).group j = if k = j then (s.group k).addMember i else s.group j := fun j => by
    unfold State.joinGroup
    rw [State.group_modGroup, State.group_modRecord, State.group_modRecord]
  have hjog : h.state ≠ .jogging := by rcases hst with e | e <;> simp [e]
  have hmov : h.state ≠ .moving := by rcases hst with e | e <;> simp [e]
  have hok := hs.records i h hr
  have hne : ∀ j, i ∉ (s.group j).members := fun j hi => by
    obtain ⟨v, hv, hvk⟩ := (hs.members.mem_iff j i).1 hi
    cases hr.symm.trans hv
    rw [hg] at hvk
    cases hvk
  refine hs.rewrite (i := i) (fun j hij => by rw [hrec, if_neg hij]) (fun r hri => ?_) (fun v hv => ?_)
    (hs.members.rewrite (fun j hij => by rw [hrec, if_neg hij]) fun j => ?_) (fun j => ?_) (fun j => ?_) rfl rfl rfl
  · rw [hrec, if_pos rfl] at hri
    cases hri
    refine ⟨hok.regroup (.inr ?_), hok.demand_rest hmov hjog, hmov, hjog⟩
    rcases hst with e | e <;> simp [e]
  · cases hr.symm.trans hv
    exact hjog
  · rw [hgrp, hrec, if_pos rfl]
    split
    · next e =>
      subst e
      refine ⟨pairwise_insertSlot i (hs.members.pairwise k), fun j => ?_, ?_⟩
      · show j ∈ insertSlot i _ ↔ _
        rw [mem_insertSlot]
        split
        · next e => simp [e]
        · next e => simp [e]
      · have h1 := (Group.state_addMember hk i).2
        have h2 : insertSlot i (s.group k).members ≠ [] := List.ne_nil_of_mem ((mem_insertSlot i i _).2 (.inl rfl))
        exact iff_of_false h1 h2
    · next e =>
      refine ⟨hs.members.pairwise j, fun j' => ?_, (hs.members j).2⟩
      split
      · next e' => subst e'; simp [hne j, e]
      · rfl
  · rw [hgrp]
    split
    · next e => exact e ▸ (hs.groups k).addMember i
    · exact hs.groups j
  · rw [hgrp]
    split
    · next e =>
      subst e
      refine .inr ⟨hk, (Group.state_addMember hk i).1, fun j hj => ?_⟩
      have hj : j ∈ insertSlot i (s.group k).members := hj
      exact (mem_insertSlot ..).1 hj
    · exact .inl ⟨rfl, hne j⟩

theorem State.Rig.assign (hs : s.Rig) (slot group : Byte) : (s.assign slot group).1.Rig := by
  rcases s.assign_cases slot group with e | ⟨i, h, hr, hst, ha, hcase⟩
  · rw [e]; exact hs
  · obtain ⟨h1, h2, -, h4⟩ := hs.leaveGroup hr (hst.imp_right .inl) ha
    rcases hcase with e | ⟨k, hk, -, e⟩ <;> rw [e]
    · exact h1
    · exact h1.joinGroup h2 rfl hst (h4 k hk)

theorem State.Rig.retire (hs : s.Rig) (slot : Byte) : (s.retire slot).1.Rig := by
  rcases s.retire_cases slot with e | ⟨i, h, hr, ha, hcase⟩
  · rw [e]; exact hs
  · have hst : h.state = .ready ∨ h.state = .lost ∨ h.state = .admitting := by tauto
    obtain ⟨h1, h2, h3, -⟩ := hs.leaveGroup hr hst ha
    have hok := h1.records i _ h2
    rcases hcase with ⟨hst, e⟩ | ⟨hst, e⟩ <;> rw [e]
    · rw [State.modRecord_eq_setSlot h2]
      refine h1.setAtRest h2 rfl rfl (hok.retiring hst rfl) (by simp) (fun _ => rfl) (by simp [hst]) fun k e => ?_
      cases e
    · have hl := h1.leaveSlot h2 (by rcases hst with e | e <;> simp [e]) rfl .retiredDirect
      exact hl

end Sys2Proof.Machine

/-! ## The console's commands keep the rig -/

namespace Sys2Proof.Machine

variable {s t : State} {k : GroupId} {i : Slot} {h r : Hoist} {g : Group} {n : Nat}

/-! ### One group as a command writes it (R36 to R49, R118, R126, R176) -/

theorem State.Rig.withGroup (hs : s.Rig) (hm : g.members = (s.group k).members)
    (he : g.state = .empty ↔ (s.group k).state = .empty) (hok : g.Ok k) (hms : (s.withGroup k g).MemberStatesOk k) :
    (s.withGroup k g).Rig := by
  have hgrp : ∀ j, (s.withGroup k g).group j = if k = j then g else s.group j := fun j =>
    State.group_withGroup ..
  refine ⟨hs.records, fun j => ?_, fun j => ?_, fun j _ => ?_, hs.grouped, hs.estop, hs.powerless, hs.jog⟩
  · rw [hgrp]
    split
    · next e =>
      subst e
      rw [hm, he]
      exact hs.members k
    · exact hs.members j
  · rw [hgrp]
    split
    · next e => exact e ▸ hok
    · exact hs.groups j
  · by_cases e : k = j
    · exact e ▸ hms
    · exact (hs.memberStates j trivial).congr (by rw [hgrp, if_neg e]) (by rw [hgrp, if_neg e]) (by rw [hgrp, if_neg e])
        (fun _ _ => .inl rfl) id

theorem Group.Ok.convert (hg : g.Ok k) (hs : g.state = .idle) (p : PendingFault) : (g.convert p).Ok k := by
  refine hg.rest (by simp [hs]) rfl (.refl _) (.inr (.inr rfl)) ⟨rfl, rfl, rfl, rfl⟩ ⟨rfl, rfl, rfl, rfl⟩ rfl
    (Nat.le_refl _) ?_
  simp [Group.FaultOk, Group.convert, StopCause.isFault]

theorem Group.Ok.acknowledge (hg : g.Ok k) (hs : g.state = .faulted) :
    Group.Ok { g.stopTimers with state := .idle, firstFault := none, stopCause := none } k := by
  refine hg.rest (by simp [hs]) rfl (.refl _) (.inr (.inl rfl)) ⟨rfl, rfl, rfl, rfl⟩ ⟨rfl, rfl, rfl, rfl⟩ rfl
    (Nat.le_refl _) ?_
  simp [Group.FaultOk]

theorem Group.Ok.disarm (hg : g.Ok k) (hs : g.state = .armed) : Group.Ok { g.stopTimers with state := .idle } k := by
  refine hg.rest (by simp [hs]) rfl (.refl _) (.inr (.inl rfl)) ⟨rfl, rfl, rfl, rfl⟩ ⟨rfl, rfl, rfl, rfl⟩ rfl
    (Nat.le_refl _) ?_
  have hf := hg.faults
  simp only [Group.FaultOk, hs] at hf
  simp_all [Group.FaultOk, Group.stopTimers]

theorem Group.Ok.arm (hg : g.Ok k) (hs : g.state = .idle) {cue : Cue} (hc : g.head = some cue)
    (hp : g.pendingFault = none) (level : Int) (slowest : Option Nat) : (g.arm cue level slowest).Ok k := by
  have hf := hg.faults
  obtain ⟨h1, ⟨q1, q2, -⟩, -, -, -, -⟩ := hg
  simp only [Group.FaultOk, hs] at hf
  obtain ⟨rest, hq⟩ : ∃ rest, g.queue = cue :: rest := List.head?_eq_some_iff.1 hc
  obtain ⟨-, -, hcr, -⟩ := q2 cue (by simp [hq])
  have hle := (cappedSpeed_le slowest cue.cruise).trans hcr
  refine ⟨h1, ⟨q1, q2, fun _ => ?_⟩, ?_, ?_, ?_, ?_⟩
  · show g.queue ≠ []
    simp [hq]
  · simp [Group.TimersOk, Group.arm, Group.stopTimers]
  · simp [Group.MoveOk, Group.arm]
    omega
  · intro e
    cases e
  · simp_all [Group.FaultOk, Group.arm, Group.stopTimers]

theorem State.GroupEdit.ok (he : s.GroupEdit k g) (hg : (s.group k).Ok k) : g.Ok k := by
  have hf := hg.faults
  cases he with
  | convert p hs => exact hg.convert hs p
  | arm cue level hs hc _ hp _ => exact hg.arm hs hc hp level _
  | disarm hs => exact hg.disarm hs
  | acknowledge hs => exact hg.acknowledge hs
  | clearAttention => exact hg
  | settings t ht =>
    obtain ⟨-, h⟩ := hg
    exact ⟨ht, h⟩
  | queue c hl hc =>
    obtain ⟨h1, ⟨q1, q2, q3⟩, h3, h4, h5, h6⟩ := hg
    refine ⟨h1, ⟨?_, fun c' hc' => ?_, fun _ => by simp⟩, h3, h4, fun hm dir hd rf hr st hst c' hc' => ?_, h6⟩
    · simp only [List.length_append, List.length_cons, List.length_nil]
      omega
    · rcases List.mem_append.1 hc' with e | e
      · exact q2 c' e
      · rw [List.mem_singleton.1 e]
        exact hc
    · refine h5 hm dir hd rf hr st hst c' ?_
      obtain ⟨c0, rest, hq⟩ := List.exists_cons_of_ne_nil (q3 (.inr hm))
      simpa [Group.head, hq] using hc'
  | flush hs =>
    rw [GroupState.atRest_iff] at hs
    obtain ⟨h1, ⟨q1, q2, q3⟩, h3, h4, h5, h6⟩ := hg
    refine ⟨h1, ⟨by simp, by simp, fun e => ?_⟩, h3, h4, fun hm => ?_, h6⟩
    · have e : (s.group k).state = .armed ∨ (s.group k).state = .moving := e
      rcases hs with e' | e' | e' <;> simp [e'] at e
    · have hm : (s.group k).state = .moving := hm
      rcases hs with e' | e' | e' <;> simp [e'] at hm
  | hold t hm hh =>
    obtain ⟨h1, h2, h3, h4, h5, h6⟩ := hg
    refine ⟨h1, h2, ?_, h4, h5, h6⟩
    simp only [Group.TimersOk, hm, hh] at h3 ⊢
    simp_all
  | stageSpeed v hm hv =>
    obtain ⟨h1, h2, h3, h4, h5, h6⟩ := hg
    refine ⟨h1, h2, h3, ?_, h5, h6⟩
    simp only [Group.MoveOk, hm] at h4 ⊢
    simp_all
  | stageTarget v hm hv =>
    obtain ⟨h1, h2, h3, h4, h5, h6⟩ := hg
    refine ⟨h1, h2, h3, ?_, h5, h6⟩
    simp only [Group.MoveOk, hm] at h4 ⊢
    simp_all
  | dropPending =>
    obtain ⟨h1, h2, h3, h4, h5, h6⟩ := hg
    refine ⟨h1, h2, h3, h4, h5, ?_⟩
    simp_all [Group.FaultOk]

theorem State.GroupEdit.members (he : s.GroupEdit k g) : g.members = (s.group k).members := by cases he <;> rfl

/-- A command leaves the group where it is, takes it to rest from a state in which no member moves, or arms it. -/
theorem State.GroupEdit.states (he : s.GroupEdit k g) :
    g.state = (s.group k).state ∧ g.arrived = (s.group k).arrived ∨
      ((s.group k).state = .idle ∨ (s.group k).state = .faulted ∨ (s.group k).state = .armed) ∧
        (g.state = .idle ∨ g.state = .faulted) ∨
      (s.group k).state = .idle ∧ g.state = .armed ∧ s.safety.permit = true ∧
        s.everyMember k Hoist.readyToMove = true := by
  cases he with
  | convert p hs => exact .inr (.inl ⟨.inl hs, .inr rfl⟩)
  | arm cue level hs hc hp _ hr => exact .inr (.inr ⟨hs, rfl, hp, hr⟩)
  | disarm hs => exact .inr (.inl ⟨.inr (.inr hs), .inl rfl⟩)
  | acknowledge hs => exact .inr (.inl ⟨.inr (.inl hs), .inl rfl⟩)
  | _ => exact .inl ⟨rfl, rfl⟩

theorem State.Rig.edit (hs : s.Rig) (he : s.GroupEdit k g) : (s.withGroup k g).Rig := by
  have hmem := he.members
  have hempty : g.state = .empty ↔ (s.group k).state = .empty := by
    rcases he.states with ⟨e, -⟩ | ⟨e1, e2⟩ | ⟨e1, e2, -⟩
    · rw [e]
    · rcases e1 with e1 | e1 | e1 <;> rcases e2 with e2 | e2 <;> simp [e1, e2]
    · simp [e1, e2]
  refine hs.withGroup hmem hempty (he.ok (hs.groups k)) ?_
  rcases he.states with ⟨e1, e2⟩ | ⟨e1, e2⟩ | ⟨e1, e2, -, hr⟩
  · exact (hs.memberStates k trivial).congr (by simpa using e1) (by simpa using e2) (by simpa using hmem)
      (fun _ _ => .inl rfl) id
  · refine State.memberStates_settled hmem e2 fun j hj v hv => ?_
    obtain ⟨w, hw, hwk⟩ := (hs.members.mem_iff k j).1 hj
    cases hw.symm.trans hv
    have hm := hs.member hw hwk
    rcases e1 with e | e | e <;> rw [e] at hm
    · exact hm
    · exact hm
    · simp [hm.1]
  · unfold State.MemberStatesOk
    rw [State.group_withGroup_self, e2]
    intro j hj v hv
    rw [State.group_withGroup_self, hmem] at hj
    obtain ⟨w, hw, hrw⟩ := (s.everyMember_iff k _).1 hr j hj
    cases hw.symm.trans hv
    simp only [Hoist.readyToMove, Bool.and_eq_true, beq_iff_eq] at hrw
    exact hrw.1

theorem State.Rig.edits (hs : s.Rig) (he : s.EditsGroup t) : t.Rig := by
  rcases he with rfl | ⟨k, g, he, rfl⟩
  · exact hs
  · exact hs.edit he

/-! ### One slot, and the lines -/

theorem State.Rig.editsSlot (hs : s.Rig) (he : s.EditsSlot t) : t.Rig := by
  rcases he with rfl | ⟨i, e, rfl, he | ⟨h, r, hr, he, hre⟩⟩
  · exact hs
  · exact hs.setEntry he
  · have hok := he.ok (hs.records i h hr)
    have hf := he.fields
    refine hs.setSame hr hre (by rw [hf]) hok (by rw [hf]) (by rw [hf]) (by rw [hf]; exact id) fun hp => ?_
    rw [hf]
    exact (hs.powerless hp i h hr).1

theorem State.Rig.clearAttention (hs : s.Rig) (kind index : Byte) : (s.clearAttention kind index).1.Rig := by
  rcases s.clearAttention_cases kind index with h | h | e
  · exact hs.edits h
  · exact hs.editsSlot h
  · rw [e]
    exact hs.of_tables rfl rfl rfl (fun _ _ => id) hs.estop id rfl rfl

theorem State.anyJogging_jogSlot (hj : s.JogOk) (h : s.anyJogging = true) : s.safety.jogSlot.isSome = true := by
  obtain ⟨i, hi⟩ := s.anyJogging_iff.1 h
  rw [(hj.1 i).1 hi]
  rfl

theorem State.Rig.holdJog (hs : s.Rig) : s.holdJog.1.Rig := by
  unfold State.holdJog
  split
  · next h =>
    refine hs.of_tables rfl rfl rfl (fun _ _ => id) hs.estop id rfl ?_
    have := hs.jog.2.2 (State.anyJogging_jogSlot hs.jog h)
    rw [this]
    rfl
  · exact hs

theorem State.Rig.takePermit (hs : s.Rig) : s.takePermit.1.Rig := by
  unfold State.takePermit
  split
  · exact hs
  · next h =>
    exact hs.of_tables rfl rfl rfl (fun _ _ => id) (fun e => absurd e h) (fun e => by cases e) rfl rfl

theorem State.Rig.releaseEstop (hs : s.Rig) : s.releaseEstop.Rig := by
  unfold State.releaseEstop
  split
  · exact hs.of_tables rfl rfl rfl (fun _ _ => id) (fun e => by cases e) id rfl rfl
  · exact hs

theorem Safety.setCue_fields (f : Safety) (line : CueLine) (high : Bool) :
    (f.setCue line high).estopAsserted = f.estopAsserted ∧ (f.setCue line high).permit = f.permit ∧
      (f.setCue line high).jogSlot = f.jogSlot ∧ (f.setCue line high).jogTimer = f.jogTimer ∧
      (f.setCue line high).estopWaiting = f.estopWaiting := by
  cases line <;> exact ⟨rfl, rfl, rfl, rfl, rfl⟩

theorem State.Rig.setCue (hs : s.Rig) (line : CueLine) (high : Bool) :
    State.Rig { s with safety := s.safety.setCue line high } := by
  obtain ⟨h1, h2, h3, h4, -⟩ := s.safety.setCue_fields line high
  refine hs.of_tables rfl rfl rfl (fun _ _ => id) ?_ ?_ h3 (by rw [h4]) <;> dsimp only
  · rw [h1, h2]; exact hs.estop
  · rw [h2]; exact id

/-- The fall of a cue line: a chain of GENG's steps from the state in which SLB has the level (R128). -/
theorem State.fallCue_cases (s : State) (line : CueLine) :
    s.fallCue line = s ∨ State.GengChain { s with safety := s.safety.setCue line false } (s.fallCue line) := by
  unfold State.fallCue
  split
  · refine .inr (.foldl _ (fun t k => ?_) _ _)
    split
    · next h => exact t.loseHold_chain k h.1
    · exact .refl
  · exact .inl rfl

/-! ### RESTART and LINKCFG of a quiet part -/

/-- In a quiet part no hoist moves: every record stands ready or lost. -/
theorem State.Rig.quietRecord (hs : s.Rig) (hq : s.Quiet) (hr : s.record i = some h) :
    h.state = .ready ∨ h.state = .lost := by
  rcases hq.2 i h hr with e | e | e
  · exact .inl e
  · exact .inr e
  · obtain ⟨k, hk⟩ := Option.isSome_iff_exists.1 (hs.grouped i h hr e)
    have hm := hs.member hr hk
    rcases hq.1 k with e' | e' | e' <;> rw [e'] at hm <;> simp_all

/-- A quiet part whose records and groups are written where they stand. -/
theorem State.Rig.quietRewrite (hs : s.Rig) (hq : s.Quiet)
    (hrec : ∀ i, t.record i = none ∧ s.record i = none ∨ ∃ h r, s.record i = some h ∧ t.record i = some r ∧
      r.group = h.group ∧ r.Ok t.link.lossThreshold ∧ (r.state = h.state ∨ r.state = .lost))
    (hgr : ∀ k, (t.group k).members = (s.group k).members ∧ (t.group k).Ok k ∧
      ((t.group k).state = .empty ∨ (t.group k).state = .idle ∨ (t.group k).state = .faulted) ∧
      ((t.group k).state = .empty ↔ (s.group k).state = .empty))
    (he : t.safety.estopAsserted = s.safety.estopAsserted) (hp : t.safety.permit = s.safety.permit)
    (hj : t.safety.jogSlot = s.safety.jogSlot) (hjt : t.safety.jogTimer = s.safety.jogTimer) : t.Rig := by
  have hst : ∀ i, ∀ r ∈ t.record i, r.Ok t.link.lossThreshold ∧ r.state ≠ .moving ∧ r.state ≠ .jogging := by
    intro i r hr
    rcases hrec i with ⟨e, -⟩ | ⟨h, r', hh, hr', -, ho, hs'⟩
    · rw [e] at hr; cases hr
    · cases hr'.symm.trans hr
      have : r.state = .ready ∨ r.state = .lost := by
        rcases hs' with e | e
        · rw [e]; exact hs.quietRecord hq hh
        · exact .inr e
      refine ⟨ho, ?_, ?_⟩ <;> rcases this with e | e <;> simp [e]
  have hnone : ∀ i, s.hoistState i ≠ some .jogging := fun i e => by
    rw [State.hoistState] at e
    obtain ⟨h, hh, e⟩ := Option.map_eq_some_iff.1 e
    rcases hs.quietRecord hq hh with e' | e' <;> simp [e'] at e
  refine ⟨fun i r hr => (hst i r hr).1, fun k => ?_, fun k => (hgr k).2.1, fun k _ => ?_,
    fun i r hr hm => absurd hm (hst i r hr).2.1, by rw [he, hp]; exact hs.estop, fun _ i r hr => ?_,
    ⟨fun i => ?_, by rw [hj, hjt]; exact hs.jog.2⟩⟩
  · obtain ⟨h1, -, -, h4⟩ := hgr k
    have hn : t.naming k = s.naming k := by
      unfold State.naming
      congr 1
      funext i
      rcases hrec i with ⟨e1, e2⟩ | ⟨h, r, hh, hr, eg, -⟩
      · rw [e1, e2]
      · rw [hh, hr, Option.bind_some, Option.bind_some, eg]
    rw [h1, h4, hn]
    exact hs.members k
  · rcases (hgr k).2.2.1 with e | e
    · unfold State.MemberStatesOk
      rw [e]
      trivial
    · exact State.memberStates_atRest e fun j _ v hv => (hst j v hv).2.1
  · obtain ⟨ho, h1, h2⟩ := hst i r hr
    exact ⟨ho.demand_rest h1 h2, h2⟩
  · rw [hj, ← hs.jog.1 i]
    refine iff_of_false (fun e => ?_) (hnone i)
    rw [State.hoistState] at e
    obtain ⟨r, hr, e⟩ := Option.map_eq_some_iff.1 e
    exact (hst i r hr).2.2 e

theorem Group.Ok.restart (hg : g.Ok k) : g.restart.Ok k := by
  have hst : g.restart.state = .empty ∨ g.restart.state = .idle := g.state_restart
  refine hg.still ⟨rfl, List.nil_sublist _, ?_, ⟨rfl, rfl, rfl⟩, ?_, ⟨rfl, rfl, rfl, rfl⟩, rfl, Nat.zero_le _, ?_⟩ ?_
  · rcases hst with e | e <;> simp [e]
  · show (none : Option Nat).isSome = true ↔ _
    rcases hst with e | e <;> simp [e]
  · rcases hst with e | e <;> simp [e]
  · have h1 : g.restart.firstFault = none := rfl
    have h2 : g.restart.pendingFault = none := rfl
    have h3 : g.restart.stopCause = none := rfl
    simp only [Group.FaultOk, h1, h2, h3]
    rcases hst with e | e <;> simp [e]

theorem Group.Ok.postFirst (hg : g.Ok k) {p : Option PendingFault} (hs : p.isSome = true → g.state = .idle) :
    (g.postFirst p).Ok k := by
  cases p with
  | none => exact hg
  | some p => exact hg.post (hs rfl) ..

theorem Group.members_postFirst (g : Group) (p : Option PendingFault) : (g.postFirst p).members = g.members := by
  cases p with
  | none => rfl
  | some p => exact g.members_post ..

/-- A fault is reposted in a group with a member, so not in a GST_EMPTY one (R31, R121). -/
theorem State.Rig.repost_idle (hs : s.Rig) (hp : ((List.finRange 32).findSome? (s.repostOf k)).isSome = true) :
    (s.group k).restart.state = .idle := by
  obtain ⟨i, -, hi⟩ := List.findSome?_isSome_iff.1 hp
  unfold State.repostOf at hi
  cases hr : s.record i with
  | none => rw [hr] at hi; cases hi
  | some h =>
    rw [hr, Option.bind_some] at hi
    split at hi
    · next hg =>
      have hmem : i ∈ (s.group k).members := (hs.members.mem_iff k i).2 ⟨h, hr, hg⟩
      have hne : (s.group k).members.isEmpty = false := by
        cases hm : (s.group k).members with
        | nil => rw [hm] at hmem; cases hmem
        | cons => rfl
      unfold Group.restart
      rw [hne]
      rfl
    · cases hi

theorem State.Rig.takeRestart (hs : s.Rig) : s.takeRestart.1.Rig := by
  unfold State.takeRestart
  split
  · exact hs
  · next hf =>
    have hq : s.Quiet := s.quiet_iff.2 (by simpa using hf)
    obtain ⟨ht, hsl, hgr⟩ := s.restart_spec
    obtain ⟨-, hl, hsf, -⟩ := s.restartBlocks_fields
    have hlink := ht.link
    have hsafe := ht.safety
    dsimp only
    generalize s.restartBlocks.repostAll = t at ht hsl hgr hlink hsafe ⊢
    rw [hl] at hlink
    rw [hsf] at hsafe
    refine hs.quietRewrite hq (fun i => ?_) (fun k => ?_) (by rw [hsafe]) (by rw [hsafe]) (by rw [hsafe]) (by rw [hsafe])
    · have hr : t.record i = (s.record i).map fun h => { h with accrued := [], baseline := none } := by
        rw [State.record, hsl]
        rfl
      cases hh : s.record i with
      | none => exact .inl ⟨by rw [hr, hh]; rfl, rfl⟩
      | some h =>
        rw [hh, Option.map_some] at hr
        exact .inr ⟨h, _, rfl, hr, rfl, hlink ▸ (hs.records i h hh).restart, .inl rfl⟩
    · rw [hgr, Group.members_postFirst, Group.state_postFirst]
      refine ⟨rfl, (hs.groups k).restart.postFirst fun hp => hs.repost_idle hp, ?_, ?_⟩
      · rcases (s.group k).state_restart with e | e <;> simp [e]
      · rw [(hs.members k).2]
        unfold Group.restart
        cases hm : (s.group k).members <;> simp

theorem Group.Ok.postIdle (hg : g.Ok k) (p : Option PendingFault) : (g.postIdle p).Ok k := by
  unfold Group.postIdle
  split
  · next hs => exact hg.postFirst fun _ => hs
  · exact hg

theorem Group.members_postIdle (g : Group) (p : Option PendingFault) : (g.postIdle p).members = g.members := by
  unfold Group.postIdle
  split
  · exact g.members_postFirst p
  · rfl

/-- A record under a changed threshold (R158). -/
theorem Hoist.Ok.rethresholded {e : SlotEntry} {old new : Nat} (he : e.record = some h) (ho : h.Ok old)
    (hs : h.state = .ready ∨ h.state = .lost) (h1 : 1 ≤ old) (h2 : 1 ≤ new) :
    ∃ r, (e.rethreshold old new).record = some r ∧ r.group = h.group ∧ r.Ok new ∧ (r.state = h.state ∨ r.state = .lost) := by
  have hmiss : h.missCount ≤ old := by
    obtain ⟨-, -, -, -, -, ⟨hm, -⟩⟩ := ho
    exact hm
  unfold SlotEntry.rethreshold
  rw [he]
  dsimp only
  split
  · next hc =>
    obtain ⟨hst, -, hlt⟩ := hc
    have hcut := (ho.cutCount h2 hlt).lost (by simp [hst]) rfl
    exact ⟨_, rfl, rfl, hcut, .inr rfl⟩
  · next hn =>
    split
    · next hc => exact ⟨_, rfl, rfl, ho.recount hc.1 h1 h2, .inl rfl⟩
    · next hn' =>
      refine ⟨h, he, rfl, ?_, .inl rfl⟩
      rcases hs with hst | hst
      · refine ho.rethreshold (by simp [hst]) ?_
        by_contra hlt
        exact hn ⟨hst, by omega, by omega⟩
      · have : new = old := by
          by_contra hne
          exact hn' ⟨hst, hne⟩
        rw [this]
        exact ho

theorem State.Rig.configureLink (hs : s.Rig) (hl : s.link.SettingsOk) (timeout : BitVec 16) (threshold : Byte)
    (idle : BitVec 16) : (s.configureLink timeout threshold idle).1.Rig := by
  rcases s.configureLink_cases timeout threshold idle with e | ⟨hf, wait, new, pause, -, -, -, h1, -, -, -, -, e⟩ <;> rw [e]
  · exact hs
  · have hq : s.Quiet := s.quiet_iff.2 hf
    have hold : 1 ≤ s.link.lossThreshold := by
      obtain ⟨-, -, -, h, -⟩ := hl
      exact h
    obtain ⟨ht, hsl, hgr⟩ := State.applyThreshold_spec
      (s := { s with link := { s.link with responseTimeout := wait, lossThreshold := new, idleInterval := pause } })
      hq.1 s.link.lossThreshold new
    have hlink := ht.link
    have hsafe := ht.safety
    generalize State.applyThreshold _ _ _ = t at ht hsl hgr hlink hsafe ⊢
    refine hs.quietRewrite hq (fun i => ?_) (fun k => ?_) (by rw [hsafe]) (by rw [hsafe]) (by rw [hsafe]) (by rw [hsafe])
    · have hr : t.record i = ((s.slot i).rethreshold s.link.lossThreshold new).record := congrArg SlotEntry.record (hsl i)
      cases hh : s.record i with
      | none =>
        refine .inl ⟨hr.trans ?_, rfl⟩
        have hh' : (s.slot i).record = none := hh
        rw [SlotEntry.rethreshold, hh']
        exact hh'
      | some h =>
        obtain ⟨r, hr', hg', ho, hst⟩ := (hs.records i h hh).rethresholded (e := s.slot i) hh (hs.quietRecord hq hh) hold h1
        exact .inr ⟨h, r, rfl, hr.trans hr', hg', by rw [hlink]; exact ho, hst⟩
    · have hgk : t.group k = (s.group k).postIdle _ := hgr k
      rw [hgk, Group.members_postIdle, Group.state_postIdle]
      exact ⟨rfl, (hs.groups k).postIdle _, hq.1 k, Iff.rfl⟩

end Sys2Proof.Machine

/-! ## The timers, the clock and the polls keep the rig -/

namespace Sys2Proof.Machine

variable {s t : State} {k : GroupId} {i : Slot} {h r : Hoist} {g : Group} {n : Nat}

/-! ### The group timers -/

theorem State.Rig.takeStepExpiry (hs : s.Rig) (ht : s.takeStepExpiry k = some t) : t.Rig := by
  rcases State.takeStepExpiry_cases ht with rfl | ⟨hk, g, hg, rfl⟩
  · exact hs
  · obtain ⟨g', hg', hok, hst, hmem⟩ := (hs.groups k).profileStep hk (s.minRatedSpeed k)
    cases hg.symm.trans hg'
    obtain ⟨dir, reference, cue, cruise, hp⟩ := (hs.groups k).profiles hk
    refine hs.withGroup hmem (by simp [hst, hp.moving]) hok ?_
    have hms := hs.memberStates k trivial
    unfold State.MemberStatesOk at hms ⊢
    rw [hp.moving] at hms
    rw [State.group_withGroup_self, hst]
    obtain ⟨hmove, hland⟩ := hms
    rw [hp.arrived, if_neg (by simp)] at hland
    have every : ∀ {p : Hoist → Prop}, s.EveryMember k p → (s.withGroup k g).EveryMember k p := by
      intro p hp j hj
      rw [State.group_withGroup_self, hmem] at hj
      exact hp j hj
    refine ⟨every hmove, ?_⟩
    split
    · obtain ⟨j, h, hj, hh⟩ := hs.members.nonempty (k := k) (by simp [hp.moving])
      refine .inl ⟨j, ?_, h, hh, hland j hj h hh⟩
      rw [State.group_withGroup_self, hmem]
      exact hj
    · exact every hland

theorem Group.Ok.holds (hg : g.Ok k) (ht : g.holdTimer.isSome = true) : g.state = .moving := by
  obtain ⟨-, h2, -⟩ := hg.timers
  exact (h2.1 ht).1

theorem Group.Ok.lands (hg : g.Ok k) (ht : g.landingTimer.isSome = true) : g.state = .moving := by
  obtain ⟨-, -, h3, -⟩ := hg.timers
  exact (h3.1 ht).1

theorem Group.Ok.stops (hg : g.Ok k) (ht : g.stopTimer.isSome = true) : g.state = .stopping := by
  obtain ⟨-, -, -, h4⟩ := hg.timers
  exact h4.1 ht

theorem State.GroupsOk.holdExpiry_chain (hs : s.GroupsOk) (k : GroupId) : s.GengChain (s.takeHoldExpiry k) := by
  unfold State.takeHoldExpiry
  split
  · next h => exact s.loseHold_chain k ((hs k).holds h)
  · exact .refl

theorem State.GroupsOk.stopExpiry_chain (hs : s.GroupsOk) (k : GroupId) : s.GengChain (s.takeStopExpiry k) := by
  unfold State.takeStopExpiry
  split
  · next h => exact s.stopExpiry_chain k ((hs k).stops h)
  · exact .refl

/-- A landing expiry: events that wait are taken first, if all have landed; then the group stops (R85, log 27). -/
theorem State.Rig.takeLandingExpiry_cases (hs : s.Rig) (k : GroupId) :
    s.GengChain (s.takeLandingExpiry k) ∨ s.deliverEvents.GengChain (s.takeLandingExpiry k) := by
  have key : ∀ t : State, t.Rig →
      t.GengChain (if (t.group k).landingTimer.isSome then t.landingExpiry k else t) := fun t ht => by
    split
    · next h => exact t.landingExpiry_chain k ((ht.groups k).lands h)
    · exact .refl
  unfold State.takeLandingExpiry
  dsimp only
  split
  · exact .inr (key _ hs.deliverEvents)
  · exact .inl (key _ hs)

/-! ### The clock -/

theorem isSome_countDown (x : Option Nat) : (countDown x).isSome = x.isSome := by
  unfold countDown
  cases x <;> rfl

theorem Group.Ok.tick (hg : g.Ok k) : g.tick.Ok k := by
  obtain ⟨h1, h2, h3, h4, h5, h6⟩ := hg
  refine ⟨h1, h2, ?_, h4, h5, h6⟩
  simpa only [Group.TimersOk, Group.tick, isSome_countDown] using h3

theorem State.Rig.tickGroups (hs : s.Rig) : (s.mapGroups Group.tick).Rig := by
  have hg : ∀ k, (s.mapGroups Group.tick).group k = (s.group k).tick := State.group_mapGroups s Group.tick
  refine ⟨hs.records, fun k => ?_, fun k => ?_, fun k _ => ?_, hs.grouped, hs.estop, hs.powerless, hs.jog⟩
  · rw [hg]
    exact hs.members k
  · rw [hg]
    exact (hs.groups k).tick
  · exact (hs.memberStates k trivial).congr (by rw [hg]; rfl) (by rw [hg]; rfl) (by rw [hg]; rfl)
      (fun _ _ => .inl rfl) id

theorem Link.lossThreshold_tick (l : Link) : l.tick.lossThreshold = l.lossThreshold :=
  (congrArg Link.lossThreshold l.tick_fields).trans rfl

theorem State.Rig.count (hs : s.Rig) : s.count.Rig :=
  hs.tickGroups.of_tables rfl rfl (Link.lossThreshold_tick _) (fun _ _ => id) hs.estop id rfl (isSome_countDown _)

/-! ### Polls and rounds -/

theorem State.Rig.repace (hs : s.Rig) : s.repace.Rig := by
  unfold State.repace
  split
  · split
    · exact hs.of_eq rfl rfl rfl rfl rfl
    · exact hs
  · exact hs

theorem State.Rig.startRound (hs : s.Rig) : s.startRound.Rig := hs.modLink rfl

theorem State.Rig.takeRoundStart (hs : s.Rig) : s.takeRoundStart.Rig := by
  unfold State.takeRoundStart
  split
  · split
    · exact hs
    · split
      · exact hs.startRound.modLink rfl
      · exact hs.startRound
  · exact hs

theorem State.Rig.takeHaltAll (hs : s.Rig) : s.takeHaltAll.Rig := by
  unfold State.takeHaltAll
  split
  · exact hs.modLink rfl
  · exact hs

theorem State.Rig.takeEndOfPoll (hs : s.Rig) : s.takeEndOfPoll.Rig := by
  unfold State.takeEndOfPoll
  split
  · split
    · exact hs.modLink rfl
    · exact hs
  · exact hs

theorem State.Rig.pollNext (hs : s.Rig) : s.pollNext.Rig := by
  unfold State.pollNext
  split
  · split
    · exact hs
    · next i _ =>
      split
      · exact hs
      · next h hr =>
        have hok : Hoist.Ok { h with seqBit := !h.seqBit } s.link.lossThreshold := hs.records i h hr
        have ht : (s.modRecord i fun r => { r with seqBit := !h.seqBit }).Rig := by
          rw [State.modRecord_eq_setSlot hr]
          exact hs.setSame hr rfl rfl hok rfl rfl id fun hp => (hs.powerless hp i h hr).1
        exact ht.modLink rfl
  · exact hs

/-! ### Misses (R154) -/

theorem State.Rig.missed (hs : s.Rig) (hr : s.record i = some h) (hl : s.link.SettingsOk) (reason : MissReason) :
    (s.setSlot i ((s.slot i).missed h reason s.link.lossThreshold)).Rig ∧
      (s.setSlot i ((s.slot i).missed h reason s.link.lossThreshold)).record i =
        some (h.missed reason s.link.lossThreshold) := by
  have hok := hs.records i h hr
  have hmiss : h.missCount ≤ s.link.lossThreshold := by
    obtain ⟨-, -, -, -, -, ⟨hm, -⟩⟩ := hok
    exact hm
  have hthr : 1 ≤ s.link.lossThreshold := by
    obtain ⟨-, -, -, h1, -⟩ := hl
    exact h1
  have hrec : ((s.slot i).missed h reason s.link.lossThreshold).record = some (h.missed reason s.link.lossThreshold) :=
    congrArg SlotEntry.record (SlotEntry.missed_eq (s.slot i) h reason hmiss)
  refine ⟨hs.setSame hr hrec rfl (hok.missed hthr reason) rfl rfl id fun hp => (hs.powerless hp i h hr).1, ?_⟩
  rw [State.record_setSlot_self, hrec]

theorem State.Rig.thresholdEvent (hs : s.Rig) (hr : s.record i = some h) (hc : h.missCount = s.link.lossThreshold) :
    (s.thresholdEvent i h).Rig := by
  have hgroup : h.state = .admitting ∨ h.state = .retiring → h.group = none := by
    obtain ⟨-, -, -, -, -, ⟨-, -, -, hg⟩⟩ := hs.records i h hr
    exact hg
  unfold State.thresholdEvent
  cases hst : h.state
  case admitting => exact hs.leaveSlotNoted hr (by simp [hst]) (hgroup (.inl hst)) _
  case retiring => exact hs.leaveSlotNoted hr (by simp [hst]) (hgroup (.inr hst)) _
  case lost => exact hs
  all_goals exact hs.lose hr (by simp [HoistState.Working, hst]) hc

theorem State.Rig.miss (hs : s.Rig) (hr : s.record i = some h) (hl : s.link.SettingsOk) (reason : MissReason) :
    (s.miss i reason).Rig := by
  have hmiss : h.missCount ≤ s.link.lossThreshold := by
    obtain ⟨-, -, -, -, -, ⟨hm, -⟩⟩ := hs.records i h hr
    exact hm
  obtain ⟨-, e⟩ := State.miss_eq hr reason hmiss
  obtain ⟨ht, hrt⟩ := hs.missed hr hl reason
  rw [e]
  split
  · next hc => exact ht.thresholdEvent hrt hc
  · exact ht

/-! ### Replies (R10, R13, R151, R152) -/

theorem State.slotReleasedNoted_leave (s : State) (i : Slot) (h : Hoist) (cause : Release) :
    s.slotReleasedNoted i h cause = s.leaveSlotNoted i h cause := by
  unfold State.slotReleasedNoted State.leaveSlotNoted
  rw [State.leaveSlot_eq]
  rfl

theorem State.Rig.takeIdent (hs : s.Rig) (hr : s.record i = some h) (ha : h.state = .admitting) (flags : Byte)
    (load speed : Nat) : (s.takeIdent i flags load speed).Rig := by
  have hok := hs.records i h hr
  have hg : h.group = none := by
    obtain ⟨-, -, -, -, -, ⟨-, -, -, hg⟩⟩ := hok
    exact hg (.inl ha)
  rw [State.takeIdent_eq hr]
  split
  · next hv =>
    refine hs.setAtRest hr rfl rfl (hok.identified ha flags hv) (by simp) (fun hp => (hs.powerless hp i h hr).1)
      (by simp [ha]) fun k e => ?_
    rw [hg] at e
    cases e
  · rw [State.slotReleasedNoted_leave]
    exact hs.leaveSlotNoted hr (by simp [ha]) hg _

/-- The bytes of a reply that passes the checks (R151): a height in its range. -/
theorem judgeReply_height {p : PollInFlight} {early : Bool} {address : Nat} {bytes : List Byte}
    (hj : judgeReply p early address bytes = none) (hf : p.frame = .run) : frameHeight bytes ≤ 500000 := by
  have hmax : Config.reportedMax = 500000 := rfl
  unfold judgeReply at hj
  dsimp only at hj
  by_contra hgt
  have h7 : p.frame = .run ∧ frameHeight bytes > Config.reportedMax := ⟨hf, by omega⟩
  rw [if_pos h7] at hj
  repeat (split at hj; · cases hj)
  cases hj

theorem State.Rig.judgeAndTake (hs : s.Rig) (hl : s.link.SettingsOk) (hev : s.eventsWaiting = none) (p : PollInFlight)
    (early : Bool) (bytes : List Byte) : (s.judgeAndTake p early bytes).Rig := by
  unfold State.judgeAndTake
  split
  · exact hs
  · next h hr =>
    split
    · exact hs.miss hr hl _
    · next hj =>
      split
      · exact hs.miss hr hl _
      · next hk =>
        have hk : h.pollFrame = p.frame := by simpa [Hoist.kindMismatch] using hk
        unfold State.applyReply
        split
        · next hf =>
          have ha : h.state ≠ .admitting := by
            intro e
            rw [Hoist.pollFrame, if_pos e, hf] at hk
            cases hk
          by_cases hret : h.state = .retiring ∧ (bytes.getD 1 0).getLsbD 7 = true
          · obtain ⟨hst, hb⟩ := hret
            have hg : h.group = none := by
              obtain ⟨-, -, -, -, -, ⟨-, -, -, hg⟩⟩ := hs.records p.slot h hr
              exact hg (.inr hst)
            rw [State.takeStatus_retired hr _ _ hst hb, State.slotReleasedNoted_leave]
            exact hs.leaveSlotNoted hr (by simp [hst]) hg _
          · exact hs.takeStatus hr ha hev _ (judgeReply_height hj hf) _ hret
        · next hf =>
          have ha : h.state = .admitting := by
            by_contra e
            rw [Hoist.pollFrame, if_neg e, hf] at hk
            cases hk
          exact hs.takeIdent hr ha ..

end Sys2Proof.Machine

/-! ## The laws of the link

`State.DlcSteady` is what the invariant says of DLC, without the pace and without an assertion that waits: both are set right
only at the end of a command. -/

namespace Sys2Proof.Machine

variable {s t : State} {i : Slot} {h : Hoist}

/-- The round against the poll list, whatever the pace (R144 to R147). -/
def State.RoundsOk (s : State) : Prop :=
  match s.link.round with
  | .stopped => s.link.pollList = [] ∧ s.link.poll = none ∧ s.link.haltOwed = false
  | .between _ => s.link.pollList ≠ [] ∧ s.link.poll = none ∧ s.link.roundStart.isSome
  | .inRound => s.link.roundStart.isSome ∧ (s.link.poll = none → s.eventsWaiting = none → s.link.nextSlot ≠ none)

/-- The laws of the link. -/
structure State.DlcSteady (s : State) : Prop where
  settings : s.link.SettingsOk
  line : s.link.LineOk
  rounds : s.RoundsOk
  poll : s.PollOk
  events : s.eventsWaiting.isSome = true → s.link.round = .inRound ∧ s.link.poll = none

/-! ### What the link reads of the records -/

/-- What a poll in flight shows of a record: the sequence bit and the kind of frame (R148). -/
def Hoist.shown (h : Hoist) : Bool × PollFrame := (h.seqBit, h.pollFrame)

theorem State.pollOk_iff (s : State) : s.PollOk ↔
    ∀ p ∈ s.link.poll, p.orphaned = false → (s.record p.slot).map Hoist.shown = some (p.seqBit, p.frame) := by
  refine forall₂_congr fun p _ => forall_congr' fun _ => ?_
  cases s.record p.slot <;> simp [Hoist.shown]

/-- DLC and what it reads of the records stay as they are. -/
structure State.SameDlc (s t : State) : Prop where
  link : t.link = s.link
  events : t.eventsWaiting = s.eventsWaiting
  shown : ∀ i, (t.record i).map Hoist.shown = (s.record i).map Hoist.shown

namespace State.SameDlc

theorem refl (s : State) : s.SameDlc s := ⟨rfl, rfl, fun _ => rfl⟩

theorem trans {s t u : State} (a : s.SameDlc t) (b : t.SameDlc u) : s.SameDlc u :=
  ⟨b.link.trans a.link, b.events.trans a.events, fun i => (b.shown i).trans (a.shown i)⟩

theorem of_slots (hl : t.link = s.link) (he : t.eventsWaiting = s.eventsWaiting) (hs : t.slots = s.slots) : s.SameDlc t :=
  ⟨hl, he, fun i => by rw [State.record, State.slot, hs]; rfl⟩

theorem of_work (w : s.GroupWork t) : s.SameDlc t :=
  ⟨w.tables.link, w.tables.eventsWaiting,
    w.toMoves.map_record _ fun _ _ hm => by rw [Hoist.shown, Hoist.shown, hm.seqBit, hm.pollFrame]⟩

theorem of_chain (h : s.GengChain t) : s.SameDlc t := of_work h.work

theorem modGroup (s : State) (k : GroupId) (f : Group → Group) : s.SameDlc (s.modGroup k f) := of_slots rfl rfl rfl

/-- A slot's own entry changes, what is shown of its record not. -/
theorem setSlot (s : State) (i : Slot) {e : SlotEntry} (he : e.record.map Hoist.shown = (s.record i).map Hoist.shown) :
    s.SameDlc (s.setSlot i e) := by
  refine ⟨rfl, rfl, fun j => ?_⟩
  rw [State.record_setSlot]
  split
  · next e => subst e; exact he
  · rfl

theorem modRecord {f : Hoist → Hoist} (hr : s.record i = some h) (hf : (f h).shown = h.shown) :
    s.SameDlc (s.modRecord i f) := by
  rw [State.modRecord_eq_setSlot hr]
  exact setSlot s i (by rw [hr, Option.map_some, Option.map_some, hf])

end State.SameDlc

theorem State.DlcSteady.same (hs : s.DlcSteady) (h : s.SameDlc t) : t.DlcSteady := by
  obtain ⟨h1, h2, h3, h4, h5⟩ := hs
  have hround : t.RoundsOk := by
    unfold State.RoundsOk at h3 ⊢
    rw [h.link, h.events]
    exact h3
  refine ⟨h.link ▸ h1, h.link ▸ h2, hround, ?_, by rw [h.link, h.events]; exact h5⟩
  rw [State.pollOk_iff] at h4 ⊢
  rw [h.link]
  intro p hp ho
  rw [h.shown]
  exact h4 p hp ho

/-- Two records of which none is HST_ADMITTING and that share the sequence bit show the same. -/
theorem Hoist.shown_eq {r : Hoist} (hb : r.seqBit = h.seqBit) (h1 : h.state ≠ .admitting) (h2 : r.state ≠ .admitting) :
    r.shown = h.shown := by
  simp [Hoist.shown, Hoist.pollFrame, hb, h1, h2]

theorem Hoist.shown_congr {r : Hoist} (hb : r.seqBit = h.seqBit) (hs : r.state = h.state) : r.shown = h.shown := by
  simp [Hoist.shown, Hoist.pollFrame, hb, hs]

/-! ### Between two polls -/

/-- A round in which no poll is open, before it is decided whether it goes on. -/
structure State.DlcIdle (s : State) : Prop where
  settings : s.link.SettingsOk
  line : s.link.line.sendsPoll = false
  round : s.link.round = .inRound
  start : s.link.roundStart.isSome = true
  poll : s.link.poll = none

theorem State.DlcSteady.idle (hs : s.DlcSteady) (hr : s.link.round = .inRound) (hp : s.link.poll = none) : s.DlcIdle := by
  obtain ⟨h1, h2, h3, -, -⟩ := hs
  unfold Link.LineOk at h2
  rw [hp] at h2
  unfold State.RoundsOk at h3
  rw [hr] at h3
  exact ⟨h1, h2, hr, h3.1, hp⟩

theorem State.DlcIdle.chain (hs : s.DlcIdle) (h : s.GengChain t) : t.DlcIdle := by
  obtain ⟨h1, h2, h3, h4, h5⟩ := hs
  have e := h.work.tables.link
  exact ⟨e ▸ h1, e ▸ h2, e ▸ h3, e ▸ h4, e ▸ h5⟩

theorem State.pollOk_none (hp : s.link.poll = none) : s.PollOk := fun p h => by
  rw [hp] at h
  cases h

theorem Link.lineOk_none {l : Link} (hp : l.poll = none) (hl : l.line.sendsPoll = false) : l.LineOk := by
  unfold Link.LineOk
  rw [hp]
  exact hl

/-- A round with no poll open goes on while a slot is left, or while a reply's events wait. -/
theorem State.DlcIdle.goesOn (hs : s.DlcIdle) (hn : s.eventsWaiting = none → s.link.nextSlot ≠ none) : s.DlcSteady := by
  refine ⟨hs.settings, Link.lineOk_none hs.poll hs.line, ?_, State.pollOk_none hs.poll, fun _ => ⟨hs.round, hs.poll⟩⟩
  unfold State.RoundsOk
  rw [hs.round]
  exact ⟨hs.start, fun _ => hn⟩

/-- The round is decided (R145 to R147). -/
theorem State.DlcIdle.decideRound (hs : s.DlcIdle) (he : s.eventsWaiting = none) :
    s.decideRound.DlcSteady ∧ s.decideRound.link.poll = none ∧ s.decideRound.eventsWaiting = none := by
  obtain ⟨h1, h2, h3, h4, h5⟩ := hs
  rw [State.decideRound_eq]
  split
  · next hl =>
    refine ⟨⟨h1, Link.lineOk_none h5 h2, ⟨hl, h5, rfl⟩, State.pollOk_none h5, fun e => ?_⟩, h5, he⟩
    have e : s.eventsWaiting.isSome = true := e
    rw [he] at e
    cases e
  · next hl =>
    refine ⟨⟨h1, Link.lineOk_none h5 h2, ⟨hl, h5, h4⟩, State.pollOk_none h5, fun e => ?_⟩, h5, he⟩
    have e : s.eventsWaiting.isSome = true := e
    rw [he] at e
    cases e

theorem State.DlcIdle.completeIfDone (hs : s.DlcIdle) (he : s.eventsWaiting = none) :
    s.completeIfDone.DlcSteady ∧ s.completeIfDone.link.poll = none ∧ s.completeIfDone.eventsWaiting = none := by
  unfold State.completeIfDone
  split
  · have hc := s.settleRounds_chain
    exact (hs.chain hc).decideRound (hc.work.tables.eventsWaiting.trans he)
  · next hn => exact ⟨hs.goesOn fun _ => hn, hs.poll, he⟩

/-- A round with no poll open completes if it is done and nothing waits; any other state of the link stays. -/
theorem State.completeIdleRound_steady (hidle : s.link.round = .inRound → s.link.poll = none → s.DlcIdle)
    (hs : (s.link.round = .inRound ∧ s.link.poll = none ∧ s.eventsWaiting = none → s.link.nextSlot ≠ none) → s.DlcSteady) :
    s.completeIdleRound.DlcSteady := by
  unfold State.completeIdleRound
  split
  · next hc =>
    obtain ⟨h1, h2, h3⟩ := hc
    exact ((hidle h1 h2).completeIfDone h3).1
  · next hc => exact hs fun h => absurd h hc

/-! ### The end of a poll -/

/-- A poll that has been open ends (R144, R149, R153). -/
theorem State.DlcSteady.endPoll (hs : s.link.SettingsOk) (hr : s.link.round = .inRound)
    (hst : s.link.roundStart.isSome = true) (i : Slot) (rest : Nat) : (s.endPoll i rest).DlcSteady := by
  have ht : (s.modLink fun l => (l.endExchange rest).shutPoll i).DlcIdle := ⟨hs, rfl, hr, hst, rfl⟩
  unfold State.endPoll
  generalize (s.modLink fun l => (l.endExchange rest).shutPoll i) = t at ht ⊢
  dsimp only
  split
  · next he =>
    refine ht.goesOn fun e => ?_
    rw [e] at he
    cases he
  · next he => exact (ht.completeIfDone (by simpa using he)).1

/-! ### The E-stop (R155) -/

/-- A HALT_ALL is owed, with no poll open (R155). -/
theorem State.DlcSteady.oweHalt (hs : s.DlcSteady) (hp : s.link.poll = none) : (s.modLink Link.oweHalt).DlcSteady := by
  obtain ⟨h1, h2, h3, h4, h5⟩ := hs
  unfold State.RoundsOk at h3
  unfold State.modLink Link.oweHalt
  split
  · next hr => exact ⟨h1, h2, by unfold State.RoundsOk; exact h3, h4, h5⟩
  · next hr =>
    unfold Link.LineOk at h2
    rw [hp] at h2
    refine ⟨h1, Link.lineOk_none hp h2, ?_, State.pollOk_none hp, h5⟩
    unfold State.RoundsOk
    cases hround : s.link.round with
    | stopped => exact absurd hround hr
    | between pace =>
      rw [hround] at h3
      exact h3
    | inRound =>
      rw [hround] at h3
      exact h3

/-- An open poll: a round is under way, no HALT_ALL is owed, and no events wait. -/
theorem State.DlcSteady.open (hs : s.DlcSteady) {p : PollInFlight} (hp : s.link.poll = some p) :
    s.link.round = .inRound ∧ s.link.haltOwed = false ∧ s.link.roundStart.isSome = true ∧ s.eventsWaiting = none := by
  obtain ⟨-, h2, h3, -, h5⟩ := hs
  unfold Link.LineOk at h2
  rw [hp] at h2
  obtain ⟨hr, hh, -⟩ := h2
  unfold State.RoundsOk at h3
  rw [hr] at h3
  refine ⟨hr, hh, h3.1, ?_⟩
  cases he : s.eventsWaiting with
  | none => rfl
  | some e =>
    have := (h5 (by rw [he]; rfl)).2
    rw [hp] at this
    cases this

theorem Link.abortLine_fields (l : Link) (p : PollInFlight) :
    (l.abortLine p).round = l.round ∧ (l.abortLine p).roundStart = l.roundStart ∧
      (l.SettingsOk → (l.abortLine p).SettingsOk) := by
  unfold Link.abortLine
  split
  · split <;> exact ⟨rfl, rfl, id⟩
  all_goals exact ⟨rfl, rfl, id⟩

theorem Link.sendsPoll_abortLine (l : Link) (p : PollInFlight) : (l.abortLine p).line.sendsPoll = false := by
  unfold Link.abortLine
  split
  · split <;> rfl
  all_goals rfl

theorem State.DlcSteady.estopLink (hs : s.DlcSteady) : s.estopLink.DlcSteady := by
  unfold State.estopLink
  split
  · exact hs
  · split
    · next p hp =>
      obtain ⟨hr, -, hst, he⟩ := hs.open hp
      obtain ⟨h1, h2, h3⟩ := s.link.abortLine_fields p
      have ht : (State.modLink (s.modLink fun l => l.abortLine p) fun l => l.shutPoll p.slot).DlcIdle :=
        ⟨h3 hs.settings, s.link.sendsPoll_abortLine p, h1.trans hr, (congrArg _ h2).trans hst, rfl⟩
      obtain ⟨hd, hpoll, -⟩ := ht.completeIfDone he
      exact hd.oweHalt hpoll
    · next hp => exact hs.oweHalt hp

theorem State.DlcSteady.takeDelivery (hs : s.DlcSteady) : s.takeDelivery.DlcSteady := by
  have ht : (s.deliverEstop s.linkFirst).DlcSteady := by
    unfold State.deliverEstop
    split
    · exact hs.estopLink.same (.of_chain (State.estopGroups_chain _))
    · exact (hs.same (.of_chain s.estopGroups_chain)).estopLink
  exact ht.same (.of_slots rfl rfl rfl)

theorem State.DlcSteady.deliverEvents (hs : s.DlcSteady) : s.deliverEvents.DlcSteady := by
  unfold State.deliverEvents
  split
  · next e he =>
    obtain ⟨hr, hp⟩ := hs.events (by rw [he]; rfl)
    have hidle : State.DlcIdle { s with eventsWaiting := none } := by
      obtain ⟨h1, h2, h3, h4, h5⟩ := hs.idle hr hp
      exact ⟨h1, h2, h3, h4, h5⟩
    have hc := State.takeEvents_chain { s with eventsWaiting := none } e
    have ht := hidle.chain hc
    refine State.completeIdleRound_steady (fun _ _ => ht) fun hn => ht.goesOn fun he' => hn ⟨ht.round, ht.poll, he'⟩
  · exact hs

/-! ### Frames and rounds -/

theorem Link.nextSlot_first {l : Link} (hl : l.pollList ≠ []) (hn : l.lastPolled = none) : l.nextSlot ≠ none := by
  obtain ⟨i, rest, hc⟩ := List.exists_cons_of_ne_nil hl
  unfold Link.nextSlot
  rw [hn, hc]
  simp

/-- A round starts with a slot to poll (R144). -/
theorem State.DlcIdle.startRound (hs : s.link.SettingsOk) (hl : s.link.pollList ≠ []) (hp : s.link.poll = none)
    (hline : s.link.line.sendsPoll = false) : s.startRound.DlcIdle ∧ s.startRound.link.nextSlot ≠ none :=
  ⟨⟨hs, hline, rfl, rfl, hp⟩, Link.nextSlot_first hl rfl⟩

theorem State.DlcSteady.takeRoundStart (hs : s.DlcSteady) : s.takeRoundStart.DlcSteady := by
  unfold State.takeRoundStart
  split
  · next pace hround =>
    split
    · exact hs
    · have h2 := hs.line
      have h3 := hs.rounds
      unfold State.RoundsOk at h3
      rw [hround] at h3
      obtain ⟨hl, hp, -⟩ := h3
      unfold Link.LineOk at h2
      rw [hp] at h2
      obtain ⟨hi, hn⟩ := State.DlcIdle.startRound hs.settings hl hp h2
      split
      · have ht : (s.startRound.modLink Link.sendHalt).DlcIdle := ⟨hi.settings, rfl, hi.round, hi.start, hi.poll⟩
        exact ht.goesOn fun _ => hn
      · exact hi.goesOn fun _ => hn
  · exact hs

/-- A change of the line alone, with no poll open. -/
theorem State.DlcSteady.modLine (hs : s.DlcSteady) (hp : s.link.poll = none) {l : Link}
    (hl : l = { s.link with line := l.line, haltOwed := l.haltOwed, gap := l.gap, lineGap := l.lineGap })
    (hline : l.line.sendsPoll = false) (hh : s.link.haltOwed = false → l.haltOwed = false) :
    State.DlcSteady { s with link := l } := by
  obtain ⟨h1, -, h3, -, h5⟩ := hs
  rw [hl] at hline hh ⊢
  refine ⟨h1, Link.lineOk_none hp hline, ?_, State.pollOk_none hp, h5⟩
  unfold State.RoundsOk at h3 ⊢
  dsimp only
  cases hround : s.link.round <;> rw [hround] at h3
  case stopped =>
    obtain ⟨a, b, c⟩ := h3
    exact ⟨a, b, hh c⟩
  all_goals exact h3

theorem Link.free_poll {l : Link} (h : l.free = true) : l.poll = none := by
  unfold Link.free at h
  simp only [Bool.and_eq_true, Option.isNone_iff_eq_none] at h
  exact h.1

theorem State.DlcSteady.takeHaltAll (hs : s.DlcSteady) : s.takeHaltAll.DlcSteady := by
  unfold State.takeHaltAll
  split
  · next hc => exact hs.modLine (Link.free_poll hc.2) (l := s.link.sendHalt) rfl rfl fun _ => rfl
  · exact hs

/-- DLC begins a poll (R148). -/
theorem State.DlcSteady.pollNext (hs : s.DlcSteady) (he : s.eventsWaiting = none) : s.pollNext.DlcSteady := by
  unfold State.pollNext
  split
  · next hc =>
    obtain ⟨hr, hf, hh⟩ := hc
    split
    · exact hs
    · next i _ =>
      split
      · exact hs
      · next h hrec =>
        have h3 := hs.rounds
        unfold State.RoundsOk at h3
        rw [hr] at h3
        unfold State.beginPoll
        rw [State.modRecord_eq_setSlot hrec]
        refine ⟨hs.settings, ⟨hr, hh, rfl⟩, ?_, ?_, fun e => ?_⟩
        · unfold State.RoundsOk
          show match s.link.round with
            | .stopped => _
            | .between _ => _
            | .inRound => _
          rw [hr]
          exact ⟨h3.1, fun e => by cases e⟩
        · rw [State.pollOk_iff]
          intro p hp _
          cases hp
          show ((s.setSlot i _).record i).map _ = _
          rw [State.record_setSlot_self]
          rfl
        · have e : s.eventsWaiting.isSome = true := e
          rw [he] at e
          cases e
  · exact hs

/-- The poll in flight goes on to its next stage, with the line quiet. -/
theorem State.DlcSteady.stage (hs : s.DlcSteady) {p : PollInFlight} (hp : s.link.poll = some p) {l : Link} {st : PollStage}
    (hl : l = { s.link with poll := some { p with stage := st }, line := .quiet, gap := l.gap, lineGap := l.lineGap })
    (hst : match st with
      | .sending => False
      | .awaiting left => left ≤ p.timeout
      | .receiving _ => True) : State.DlcSteady { s with link := l } := by
  obtain ⟨hr, hh, hstart, he⟩ := hs.open hp
  obtain ⟨h1, -, -, h4, -⟩ := hs
  rw [hl]
  refine ⟨h1, ⟨hr, hh, ?_⟩, ?_, ?_, fun e => ?_⟩
  · cases st with
    | sending => exact absurd hst not_false
    | awaiting left => exact ⟨rfl, hst⟩
    | receiving early => rfl
  · unfold State.RoundsOk
    dsimp only
    rw [hr]
    exact ⟨hstart, fun e => by cases e⟩
  · rw [State.pollOk_iff] at h4 ⊢
    intro q hq ho
    cases hq
    exact h4 p hp ho
  · have e : s.eventsWaiting.isSome = true := e
    rw [he] at e
    cases e

theorem State.DlcSteady.takeEndOfPoll (hs : s.DlcSteady) : s.takeEndOfPoll.DlcSteady := by
  unfold State.takeEndOfPoll
  split
  · next p hp =>
    split
    · exact hs.stage hp (st := .awaiting p.timeout)
        (l := { s.link with
          poll := some { p with stage := .awaiting p.timeout }, line := .quiet, gap := 0, lineGap := Config.frameGap })
        rfl (Nat.le_refl _)
    · exact hs
  · exact hs

theorem State.DlcSteady.repace (hs : s.DlcSteady) : s.repace.DlcSteady := by
  unfold State.repace
  split
  · next hround =>
    split
    · obtain ⟨h1, h2, h3, -, h5⟩ := hs
      unfold State.RoundsOk at h3
      rw [hround] at h3
      obtain ⟨hl, hp, hst⟩ := h3
      unfold Link.LineOk at h2
      rw [hp] at h2
      refine ⟨h1, Link.lineOk_none hp h2, ⟨hl, hp, hst⟩, State.pollOk_none hp, fun e => ?_⟩
      have e : s.eventsWaiting.isSome = true := e
      rw [hround] at h5
      cases (h5 e).1
    · exact hs
  · exact hs

/-! ### The clock -/

theorem PollInFlight.tick_fields (p : PollInFlight) :
    p.tick.slot = p.slot ∧ p.tick.frame = p.frame ∧ p.tick.seqBit = p.seqBit ∧ p.tick.orphaned = p.orphaned ∧
      p.tick.timeout = p.timeout := by
  unfold PollInFlight.tick
  split <;> exact ⟨rfl, rfl, rfl, rfl, rfl⟩

theorem Link.tick_kept (l : Link) : l.tick.poll = l.poll.map PollInFlight.tick ∧ l.tick.round = l.round ∧
    l.tick.haltOwed = l.haltOwed ∧ l.tick.pollList = l.pollList ∧ l.tick.lastPolled = l.lastPolled ∧
    l.tick.roundStart = l.roundStart ∧ l.tick.responseTimeout = l.responseTimeout ∧
    l.tick.lossThreshold = l.lossThreshold ∧ l.tick.idleInterval = l.idleInterval := by
  have e := l.tick_fields
  exact ⟨(congrArg Link.poll e).trans rfl, (congrArg Link.round e).trans rfl, (congrArg Link.haltOwed e).trans rfl,
    (congrArg Link.pollList e).trans rfl, (congrArg Link.lastPolled e).trans rfl, (congrArg Link.roundStart e).trans rfl,
    (congrArg Link.responseTimeout e).trans rfl, (congrArg Link.lossThreshold e).trans rfl,
    (congrArg Link.idleInterval e).trans rfl⟩

theorem Link.sendsPoll_tick (l : Link) : l.tick.line.sendsPoll = l.line.sendsPoll ∧
    (l.line = .quiet → l.tick.line = .quiet) := by
  unfold Link.tick
  dsimp only
  split
  · next e => rw [e]; exact ⟨rfl, fun _ => rfl⟩
  · next e => rw [e]; exact ⟨rfl, fun h => by cases h⟩
  · next e => rw [e]; split <;> exact ⟨rfl, fun h => by cases h⟩
  · next e => rw [e]; split <;> exact ⟨rfl, fun h => by cases h⟩
  · next e => rw [e]; exact ⟨rfl, fun h => by cases h⟩

theorem Link.LineOk.tick {l : Link} (hl : l.LineOk) : l.tick.LineOk := by
  obtain ⟨hp, hr, hh, -⟩ := l.tick_kept
  obtain ⟨h1, h2⟩ := l.sendsPoll_tick
  unfold Link.LineOk at hl ⊢
  rw [hp, hr, hh]
  cases hpoll : l.poll with
  | none =>
    rw [hpoll] at hl
    exact h1.trans hl
  | some p =>
    rw [hpoll] at hl
    obtain ⟨a, b, c⟩ := hl
    refine ⟨a, b, ?_⟩
    unfold PollInFlight.tick
    cases hst : p.stage with
    | sending =>
      rw [hst] at c
      dsimp only
      rw [hst]
      exact h1.trans c
    | awaiting left =>
      rw [hst] at c
      obtain ⟨c1, c2⟩ := c
      exact ⟨h2 c1, (Nat.sub_le ..).trans c2⟩
    | receiving early =>
      rw [hst] at c
      dsimp only
      rw [hst]
      exact h2 c

theorem Link.nextSlot_tick (l : Link) : l.tick.nextSlot = l.nextSlot := by
  obtain ⟨-, -, -, h1, h2, -⟩ := l.tick_kept
  unfold Link.nextSlot
  rw [h1, h2]

/-- The clock leaves the laws of the link. -/
theorem State.DlcSteady.tickLink (hs : s.DlcSteady) : State.DlcSteady { s with link := s.link.tick } := by
  obtain ⟨h1, h2, h3, h4, h5⟩ := hs
  obtain ⟨hp, hr, hh, hl, -, hst, t1, t2, t3⟩ := s.link.tick_kept
  refine ⟨?_, h2.tick, ?_, ?_, fun e => ?_⟩
  · unfold Link.SettingsOk
    rw [t1, t2, t3]
    exact h1
  · unfold State.RoundsOk at h3 ⊢
    dsimp only
    rw [hp, hr, hh, hl, hst, Link.nextSlot_tick]
    simpa only [Option.map_eq_none_iff] using h3
  · rw [State.pollOk_iff] at h4 ⊢
    intro q hq ho
    have hq : q ∈ s.link.tick.poll := hq
    rw [hp] at hq
    obtain ⟨p, hpp, rfl⟩ := Option.map_eq_some_iff.1 hq
    obtain ⟨f1, f2, f3, f4, -⟩ := p.tick_fields
    rw [f1, f2, f3]
    exact h4 p hpp (f4 ▸ ho)
  · obtain ⟨a, b⟩ := h5 e
    exact ⟨hr.trans a, by rw [hp, b]; rfl⟩

theorem State.DlcSteady.count (hs : s.DlcSteady) : s.count.DlcSteady :=
  hs.tickLink.same (.of_slots rfl rfl rfl)

end Sys2Proof.Machine

/-! ## Slots that enter and leave the poll list, and the power of the groups -/

namespace Sys2Proof.Machine

variable {s t u : State} {i : Slot} {h r : Hoist} {k : GroupId}

/-! ### The poll list (R143, R147, R153) -/

/-- The poll in flight of a slot that leaves the list is orphaned. -/
def PollInFlight.orphan (i : Slot) (p : PollInFlight) : PollInFlight := if p.slot = i then { p with orphaned := true } else p

theorem PollInFlight.orphan_fields (i : Slot) (p : PollInFlight) :
    (p.orphan i).slot = p.slot ∧ (p.orphan i).frame = p.frame ∧ (p.orphan i).seqBit = p.seqBit ∧
      (p.orphan i).stage = p.stage ∧ (p.orphan i).timeout = p.timeout ∧
      ((p.orphan i).orphaned = false → p.slot ≠ i ∧ p.orphaned = false) := by
  unfold PollInFlight.orphan
  split
  · exact ⟨rfl, rfl, rfl, rfl, rfl, fun e => by cases e⟩
  · next hn => exact ⟨rfl, rfl, rfl, rfl, rfl, fun e => ⟨hn, e⟩⟩

/-- DLC after a slot has left its list, before it is decided on the round. -/
def Link.unlist (l : Link) (i : Slot) : Link :=
  { l with pollList := removeSlot i l.pollList, poll := l.poll.map (PollInFlight.orphan i) }

theorem State.leavePollList_eq (s : State) (i : Slot) : s.leavePollList i =
    match s.link.round with
    | .between _ =>
      if (removeSlot i s.link.pollList).isEmpty then
        { s with link := { s.link.unlist i with round := .stopped, haltOwed := false } }
      else { s with link := s.link.unlist i }
    | .inRound | .stopped => State.completeIdleRound { s with link := s.link.unlist i } := rfl

theorem Link.LineOk.unlist {l : Link} (hl : l.LineOk) (i : Slot) : (l.unlist i).LineOk := by
  unfold Link.LineOk at hl ⊢
  unfold Link.unlist
  dsimp only
  cases hp : l.poll with
  | none =>
    rw [hp] at hl
    exact hl
  | some p =>
    rw [hp] at hl
    obtain ⟨-, -, -, e1, e2, -⟩ := p.orphan_fields i
    dsimp only [Option.map_some]
    rw [e1, e2]
    exact hl

/-- A slot's record is gone, and the slot leaves the poll list. -/
theorem State.DlcSteady.leavePollList (hs : s.DlcSteady) (hl : t.link = s.link) (he : t.eventsWaiting = s.eventsWaiting)
    (hr : ∀ j, j ≠ i → (t.record j).map Hoist.shown = (s.record j).map Hoist.shown) : (t.leavePollList i).DlcSteady := by
  obtain ⟨h1, h2, h3, h4, h5⟩ := hs
  rw [State.leavePollList_eq, hl]
  unfold State.RoundsOk at h3
  have hline := h2.unlist i
  have hpoll : State.PollOk { t with link := s.link.unlist i } := by
    rw [State.pollOk_iff] at h4 ⊢
    intro q hq ho
    obtain ⟨p, hp, rfl⟩ := Option.map_eq_some_iff.1 hq
    obtain ⟨f1, f2, f3, -, -, f4⟩ := p.orphan_fields i
    obtain ⟨hne, ho⟩ := f4 ho
    rw [f1, f2, f3]
    exact (hr p.slot hne).trans (h4 p hp ho)
  cases hround : s.link.round with
  | stopped =>
    rw [hround] at h3
    obtain ⟨a, b, c⟩ := h3
    refine State.completeIdleRound_steady (fun e => ?_) fun _ => ⟨h1, hline, ?_, hpoll, fun e => ?_⟩
    · have e : s.link.round = .inRound := e
      rw [hround] at e
      cases e
    · unfold State.RoundsOk Link.unlist
      dsimp only
      rw [hround]
      exact ⟨by rw [a]; rfl, by rw [b]; rfl, c⟩
    · have e : t.eventsWaiting.isSome = true := e
      rw [he] at e
      have := (h5 e).1
      rw [hround] at this
      cases this
  | between pace =>
    rw [hround] at h3
    obtain ⟨a, b, c⟩ := h3
    have hp : (s.link.unlist i).poll = none := by
      unfold Link.unlist
      rw [b]
      rfl
    have hev : t.eventsWaiting.isSome = true → False := fun e => by
      rw [he] at e
      have := (h5 e).1
      rw [hround] at this
      cases this
    have hq : s.link.line.sendsPoll = false := by
      unfold Link.LineOk at h2
      rw [b] at h2
      exact h2
    dsimp only
    split
    · next hempty =>
      exact ⟨h1, Link.lineOk_none hp hq, ⟨List.isEmpty_iff.1 hempty, hp, rfl⟩, State.pollOk_none hp, fun e => (hev e).elim⟩
    · next hne =>
      refine ⟨h1, Link.lineOk_none hp hq, ?_, State.pollOk_none hp, fun e => (hev e).elim⟩
      unfold State.RoundsOk
      show match s.link.round with
        | .stopped => _
        | .between _ => _
        | .inRound => _
      rw [hround]
      exact ⟨fun e => hne (List.isEmpty_iff.2 e), hp, c⟩
  | inRound =>
    rw [hround] at h3
    have hidle : (s.link.unlist i).poll = none → State.DlcIdle { t with link := s.link.unlist i } := fun hp => by
      refine ⟨h1, ?_, hround, h3.1, hp⟩
      unfold Link.LineOk at hline
      rw [hp] at hline
      exact hline
    refine State.completeIdleRound_steady (fun _ hp => hidle hp) fun hn => ⟨h1, hline, ?_, hpoll, fun e => ?_⟩
    · unfold State.RoundsOk
      show match s.link.round with
        | .stopped => _
        | .between _ => _
        | .inRound => _
      rw [hround]
      exact ⟨h3.1, fun hp he => hn ⟨hround, hp, he⟩⟩
    · have e : t.eventsWaiting.isSome = true := e
      rw [he] at e
      refine ⟨hround, ?_⟩
      show s.link.poll.map _ = none
      rw [(h5 e).2]
      rfl

theorem State.DlcSteady.leaveSlot (hs : s.DlcSteady) (i : Slot) (h : Hoist) (cause : Release) :
    (s.leaveSlot i h cause).DlcSteady := by
  rw [State.leaveSlot_emptied]
  exact hs.leavePollList rfl rfl fun j hj => by rw [State.record_emptied, if_neg (Ne.symm hj)]

/-- A new slot in the list leaves the round a slot to poll. -/
theorem Link.nextSlot_insert {l : Link} (h : l.nextSlot ≠ none) (i : Slot) :
    Link.nextSlot { l with pollList := insertSlot i l.pollList } ≠ none := by
  intro hn
  refine h ?_
  rw [Link.nextSlot_none] at hn ⊢
  exact fun j hj => hn j ((mem_insertSlot ..).2 (.inr hj))

/-- A new record's slot enters the poll list (R143, R147). -/
theorem State.DlcSteady.enterPollList (hs : s.DlcSteady) (hl : t.link = s.link) (he : t.eventsWaiting = s.eventsWaiting)
    (hi : s.record i = none) (hr : ∀ j, j ≠ i → (t.record j).map Hoist.shown = (s.record j).map Hoist.shown) :
    (t.enterPollList i).DlcSteady := by
  obtain ⟨h1, h2, h3, h4, h5⟩ := hs
  have hne : insertSlot i s.link.pollList ≠ [] := List.ne_nil_of_mem ((mem_insertSlot i i _).2 (.inl rfl))
  have hpoll : State.PollOk { t with link := { s.link with pollList := insertSlot i s.link.pollList } } := by
    rw [State.pollOk_iff] at h4 ⊢
    intro p hp ho
    have hp : p ∈ s.link.poll := hp
    refine (hr p.slot fun e => ?_).trans (h4 p hp ho)
    have := h4 p hp ho
    rw [e, hi] at this
    cases this
  unfold State.RoundsOk at h3
  cases hround : s.link.round with
  | stopped =>
    rw [hround] at h3
    obtain ⟨a, b, c⟩ := h3
    have hq : s.link.line.sendsPoll = false := by
      unfold Link.LineOk at h2
      rw [b] at h2
      exact h2
    obtain ⟨hi, hn⟩ := State.DlcIdle.startRound
      (s := { t with link := { s.link with pollList := insertSlot i s.link.pollList } }) h1 hne b hq
    have e : t.enterPollList i = State.modLink (State.startRound { t with
        link := { s.link with pollList := insertSlot i s.link.pollList } }) fun l => { l with gap := l.lineGap } := by
      simp only [State.enterPollList, State.modLink, hl, hround]
    rw [e]
    refine State.DlcIdle.goesOn ⟨hi.settings, hi.line, hi.round, hi.start, hi.poll⟩ fun _ => hn
  | between pace =>
    rw [hround] at h3
    obtain ⟨a, b, c⟩ := h3
    have e : t.enterPollList i = { t with link := { s.link with pollList := insertSlot i s.link.pollList } } := by
      simp only [State.enterPollList, State.modLink, hl, hround]
    rw [e]
    refine ⟨h1, h2, ?_, hpoll, fun e => ?_⟩
    · unfold State.RoundsOk
      dsimp only
      rw [hround]
      exact ⟨hne, b, c⟩
    · have e : t.eventsWaiting.isSome = true := e
      rw [he] at e
      have := (h5 e).1
      rw [hround] at this
      cases this
  | inRound =>
    rw [hround] at h3
    have e : t.enterPollList i = { t with link := { s.link with pollList := insertSlot i s.link.pollList } } := by
      simp only [State.enterPollList, State.modLink, hl, hround]
    rw [e]
    refine ⟨h1, h2, ?_, hpoll, fun e => ?_⟩
    · unfold State.RoundsOk
      dsimp only
      rw [hround]
      exact ⟨h3.1, fun hp hev => Link.nextSlot_insert (h3.2 hp (he ▸ hev)) i⟩
    · have e : t.eventsWaiting.isSome = true := e
      rw [he] at e
      exact h5 e

theorem State.DlcSteady.entered (hs : s.DlcSteady) (hi : s.record i = none) (h : Hoist) : (s.entered i h).DlcSteady := by
  refine hs.enterPollList rfl rfl hi fun j hj => ?_
  show ((s.setSlot i _).record j).map _ = _
  rw [State.record_setSlot, if_neg (Ne.symm hj)]

/-! ### The power of the groups (R78, log 26) -/

/-- Without power, no group is armed or moving, unless an assertion still waits to be taken. -/
def State.PowerTaken (s : State) : Prop :=
  s.safety.permit = false → s.safety.estopWaiting = false → s.Unmoving

/-- No group is set in motion, but with power; and the lines that decide on it stay. -/
structure State.Calm (s t : State) : Prop where
  permit : t.safety.permit = false → s.safety.permit = false
  waiting : t.safety.estopWaiting = s.safety.estopWaiting
  asserted : s.safety.estopAsserted = true → t.safety.estopAsserted = true
  unmoving : t.safety.permit = false → s.Unmoving → t.Unmoving

theorem State.PowerTaken.calm (hs : s.PowerTaken) (h : s.Calm t) : t.PowerTaken := fun hp hw =>
  h.unmoving hp (hs (h.permit hp) (h.waiting ▸ hw))

namespace State.Calm

theorem trans (a : s.Calm t) (b : t.Calm u) : s.Calm u :=
  ⟨fun h => a.permit (b.permit h), b.waiting.trans a.waiting, fun h => b.asserted (a.asserted h),
    fun h hu => b.unmoving h (a.unmoving (b.permit h) hu)⟩

/-- The lines stay, and the groups' states, but for those that come to rest. -/
theorem of_states (hsf : t.safety = s.safety)
    (h : ∀ k, (t.group k).state = (s.group k).state ∨ (t.group k).state ≠ .armed ∧ (t.group k).state ≠ .moving) :
    s.Calm t := by
  refine ⟨by rw [hsf]; exact id, by rw [hsf], by rw [hsf]; exact id, fun _ hu k => ?_⟩
  rcases h k with e | e
  · rw [e]; exact hu k
  · exact e

theorem of_groups (hsf : t.safety = s.safety) (hg : t.groups = s.groups) : s.Calm t :=
  of_states hsf fun k => .inl (by rw [State.group, hg]; rfl)

theorem refl (s : State) : s.Calm s := of_groups rfl rfl

theorem of_chain (h : s.GengChain t) : s.Calm t := by
  have e := h.work.tables.safety
  exact ⟨by rw [e]; exact id, by rw [e], by rw [e]; exact id, fun _ hu => hu.chain h⟩

theorem of_edits (h : s.EditsGroup t) : s.Calm t := by
  rcases h with rfl | ⟨k, g, he, rfl⟩
  · exact refl _
  · refine ⟨id, rfl, id, fun hp hu j => ?_⟩
    rw [State.group_withGroup]
    split
    · rcases he.states with ⟨e, -⟩ | ⟨-, e | e⟩ | ⟨-, -, e, -⟩
      · rw [e]; exact hu k
      · simp [e]
      · simp [e]
      · have hp : s.safety.permit = false := hp
        rw [hp] at e
        cases e
    · exact hu j

end State.Calm

theorem State.completeRound_calm (s : State) : s.Calm s.completeRound := by
  have h := State.Calm.of_chain s.settleRounds_chain
  refine h.trans (.of_groups ?_ ?_) <;> (rw [State.completeRound, State.decideRound_eq])

theorem State.completeIfDone_calm (s : State) : s.Calm s.completeIfDone := by
  unfold State.completeIfDone
  split
  · exact s.completeRound_calm
  · exact .refl s

theorem State.completeIdleRound_calm (s : State) : s.Calm s.completeIdleRound := by
  unfold State.completeIdleRound
  split
  · exact s.completeIfDone_calm
  · exact .refl s

theorem State.endPoll_calm (s : State) (i : Slot) (rest : Nat) : s.Calm (s.endPoll i rest) := by
  have h : s.Calm (s.modLink fun l => (l.endExchange rest).shutPoll i) := .of_groups rfl rfl
  unfold State.endPoll
  dsimp only
  split
  · exact h
  · exact h.trans (State.completeIfDone_calm _)

theorem State.leavePollList_calm (s : State) (i : Slot) : s.Calm (s.leavePollList i) := by
  have h : s.Calm { s with link := s.link.unlist i } := .of_groups rfl rfl
  rw [State.leavePollList_eq]
  split
  · split
    · exact .of_groups rfl rfl
    · exact h
  all_goals exact h.trans (State.completeIdleRound_calm _)

theorem State.leaveSlot_calm (s : State) (i : Slot) (h : Hoist) (cause : Release) : s.Calm (s.leaveSlot i h cause) := by
  have h1 : s.Calm (s.emptied i h cause) := .of_groups rfl rfl
  exact h1.trans (State.leavePollList_calm _ i)

theorem State.enterPollList_calm (s : State) (i : Slot) : s.Calm (s.enterPollList i) := by
  unfold State.enterPollList
  dsimp only
  split <;> exact .of_groups rfl rfl

theorem State.entered_calm (s : State) (i : Slot) (h : Hoist) : s.Calm (s.entered i h) := by
  have h1 : s.Calm { s.setSlot i { s.slot i with record := some h, attention := false } with
      nodeMap := insertAddress h.address i s.nodeMap } := .of_groups rfl rfl
  exact h1.trans (State.enterPollList_calm _ i)

theorem State.endJog_calm (s : State) (cause : JogEndCause) : s.Calm (s.endJog cause) := by
  have hsaf : (s.endJog cause).safety.permit = s.safety.permit ∧
      (s.endJog cause).safety.estopWaiting = s.safety.estopWaiting ∧
      (s.endJog cause).safety.estopAsserted = s.safety.estopAsserted := by
    rcases s.endJog_cases cause with ⟨-, e⟩ | ⟨i, hi, -⟩
    · rw [e]; exact ⟨rfl, rfl, rfl⟩
    · rw [State.safety_endJog hi cause]; exact ⟨rfl, rfl, rfl⟩
  have hgrp : (s.endJog cause).groups = s.groups := by rw [State.endJog_fields]
  obtain ⟨h1, h2, h3⟩ := hsaf
  refine ⟨by rw [h1]; exact id, h2, by rw [h3]; exact id, fun _ hu k => ?_⟩
  rw [State.group, hgrp]
  exact hu k

theorem State.estopLink_calm (s : State) : s.Calm s.estopLink := by
  unfold State.estopLink
  split
  · exact .refl s
  · split
    · next p _ =>
      have h : s.Calm (State.modLink (s.modLink fun l => l.abortLine p) fun l => l.shutPoll p.slot) := .of_groups rfl rfl
      exact (h.trans (State.completeIfDone_calm _)).trans (.of_groups rfl rfl)
    · exact .of_groups rfl rfl

end Sys2Proof.Machine

/-! ## A reply or a timeout that ends a poll -/

namespace Sys2Proof.Machine

variable {s t u : State} {i : Slot} {h r : Hoist} {k : GroupId}

/-- A slot leaves its list while a poll is open: the round goes on with it (R153). -/
theorem State.link_leaveSlot_open (hr : s.link.round = .inRound) (hp : s.link.poll.isSome = true) (i : Slot) (h : Hoist)
    (cause : Release) : (s.leaveSlot i h cause).link = s.link.unlist i := by
  rw [State.leaveSlot_emptied, State.leavePollList_eq]
  show State.link (match s.link.round with
    | .between _ => _
    | .inRound | .stopped => _) = _
  rw [hr]
  dsimp only
  unfold State.completeIdleRound
  rw [if_neg]
  · rfl
  · rintro ⟨-, hn, -⟩
    have hn : s.link.poll.map (PollInFlight.orphan i) = none := hn
    rw [Option.map_eq_none_iff] at hn
    rw [hn] at hp
    cases hp

/-- What an open poll's taking leaves: the round under way, the poll open, the port, and the lines. -/
structure State.Taken (s t : State) : Prop where
  round : t.link.round = s.link.round
  start : t.link.roundStart = s.link.roundStart
  poll : t.link.poll.isSome = s.link.poll.isSome
  settings : s.link.SettingsOk → t.link.SettingsOk
  calm : s.Calm t
  port : t.port = s.port

namespace State.Taken

theorem of_link (hl : t.link = s.link) (hc : s.Calm t) (hp : t.port = s.port) : s.Taken t :=
  ⟨by rw [hl], by rw [hl], by rw [hl], by rw [hl]; exact id, hc, hp⟩

theorem refl (s : State) : s.Taken s := of_link rfl (.refl s) rfl

theorem trans (a : s.Taken t) (b : t.Taken u) : s.Taken u :=
  ⟨b.round.trans a.round, b.start.trans a.start, b.poll.trans a.poll,
    fun h => b.settings (a.settings h), a.calm.trans b.calm,
    b.port.trans a.port⟩

theorem of_chain (h : s.GengChain t) : s.Taken t := of_link h.work.tables.link (.of_chain h) h.work.tables.port

theorem setSlot (s : State) (i : Slot) (e : SlotEntry) : s.Taken (s.setSlot i e) := of_link rfl (.of_groups rfl rfl) rfl

theorem endJog (s : State) (cause : JogEndCause) : s.Taken (s.endJog cause) :=
  of_link (by rw [State.endJog_fields]) (s.endJog_calm cause) (by rw [State.endJog_fields])

/-- A slot leaves its list while a poll is open (R153). -/
theorem leaveSlot (hr : s.link.round = .inRound) (hp : s.link.poll.isSome = true) (i : Slot) (h : Hoist) (cause : Release) :
    s.Taken (s.leaveSlot i h cause) := by
  have e := State.link_leaveSlot_open hr hp i h cause
  refine ⟨by rw [e]; rfl, by rw [e]; rfl, ?_, fun hs => by rw [e]; exact hs, s.leaveSlot_calm i h cause,
    (s.leaveSlot_spec i h cause).2.2.2.port⟩
  rw [e]
  exact Option.isSome_map

theorem leaveSlotNoted (hr : s.link.round = .inRound) (hp : s.link.poll.isSome = true) (i : Slot) (h : Hoist)
    (cause : Release) : s.Taken (s.leaveSlotNoted i h cause) :=
  (setSlot s i _).trans (leaveSlot (s := s.slotAttention i) hr hp i h cause)

theorem lose (s : State) (i : Slot) (h : Hoist) : s.Taken (s.lose i h) := by
  unfold State.lose
  have ht : s.Taken (((s.modRecord i Hoist.lose).modSlot i (SlotEntry.addCurrent .lost)).slotAttention i) :=
    of_link rfl (.of_groups rfl rfl) rfl
  generalize ((s.modRecord i Hoist.lose).modSlot i (SlotEntry.addCurrent .lost)).slotAttention i = t at ht ⊢
  have hu : s.Taken (match h.group with
      | some k => t.lossEvent k i (some h.missCount)
      | none => t) := by
    split
    · exact ht.trans (of_chain (t.lossEvent_chain ..))
    · exact ht
  dsimp only
  split
  · exact hu.trans (endJog _ _)
  · exact hu

theorem miss (hr : s.link.round = .inRound) (hp : s.link.poll.isSome = true) (i : Slot) (reason : MissReason) :
    s.Taken (s.miss i reason) := by
  unfold State.miss
  have ht : s.Taken ((s.modRecord i fun h => h.countMiss reason s.link.lossThreshold).modSlot i
      (SlotEntry.addCurrent .linkErr)) := of_link rfl (.of_groups rfl rfl) rfl
  generalize (s.modRecord i fun h => h.countMiss reason s.link.lossThreshold).modSlot i (SlotEntry.addCurrent .linkErr) = t
    at ht
  have hr' := ht.round.trans hr
  have hp' := ht.poll.trans hp
  dsimp only
  split
  · exact ht
  · split
    · refine ht.trans ?_
      unfold State.thresholdEvent
      split
      · exact leaveSlotNoted hr' hp' ..
      · exact leaveSlotNoted hr' hp' ..
      · exact refl t
      all_goals exact lose t i _
    · exact ht

theorem handed (s : State) (i : Slot) (k : Option GroupId) (before after stopped : Bool) :
    s.Taken (s.handed i k before after stopped) := by
  have hc : s.GengChain (((s.handCondition i).handLanded k before after).handStopped k stopped) :=
    ((s.handCondition_chain i).trans (State.handLanded_chain ..)).trans (State.handStopped_chain ..)
  unfold State.handed
  generalize ((s.handCondition i).handLanded k before after).handStopped k stopped = t at hc ⊢
  rcases t.jogProgress_cases i with e | ⟨-, cause, -, -, e⟩ <;> rw [e]
  · exact of_chain hc
  · exact (of_chain hc).trans (endJog t cause)

theorem evaluate (hr : s.record i = some h) (stopped : Bool) : s.Taken (s.evaluate i stopped) := by
  have ht : s.Taken (s.evaluated i h) := setSlot ..
  have hu : s.Taken { s.evaluated i h with freeCount := (s.evaluated i h).freeCount + 1 } :=
      of_link rfl (.of_groups rfl rfl) rfl
  rcases State.evaluate_cases hr stopped with ⟨-, e⟩ | ⟨ev, -, e | e⟩ <;> rw [e]
  · exact ht.trans (handed ..)
  · exact hu.trans (handed ..)
  · exact of_link rfl (.of_groups rfl rfl) rfl

theorem takeStatus (hr : s.link.round = .inRound) (hp : s.link.poll.isSome = true) (hrec : s.record i = some h)
    (flags : Byte) (height load : Nat) : s.Taken (s.takeStatus i flags height load) := by
  by_cases hret : h.state = .retiring ∧ flags.getLsbD 7 = true
  · rw [State.takeStatus_retired hrec _ _ hret.1 hret.2, State.slotReleasedNoted_leave]
    exact leaveSlotNoted hr hp ..
  · rw [State.takeStatus_eq hrec flags height load hret]
    exact (setSlot ..).trans (evaluate (State.record_setSlot_self ..) _)

theorem takeIdent (hr : s.link.round = .inRound) (hp : s.link.poll.isSome = true) (hrec : s.record i = some h)
    (flags : Byte) (load speed : Nat) : s.Taken (s.takeIdent i flags load speed) := by
  rw [State.takeIdent_eq hrec]
  split
  · exact setSlot ..
  · rw [State.slotReleasedNoted_leave]
    exact leaveSlotNoted hr hp ..

theorem judgeAndTake (hr : s.link.round = .inRound) (hp : s.link.poll.isSome = true) (p : PollInFlight) (early : Bool)
    (bytes : List Byte) : s.Taken (s.judgeAndTake p early bytes) := by
  unfold State.judgeAndTake State.applyReply
  split
  · exact refl s
  · next h hrec =>
    split
    · exact miss hr hp ..
    · split
      · exact miss hr hp ..
      · split
        · exact takeStatus hr hp hrec ..
        · exact takeIdent hr hp hrec ..

end State.Taken

end Sys2Proof.Machine

/-! ## The state of a run, without pace and port

`State.Sound` gathers the rig, the link, what waits and the power. Each operation keeps it. -/

namespace Sys2Proof.Machine

variable {s t : State} {i : Slot} {h r : Hoist} {k : GroupId}

/-- The laws that every operation keeps by itself. -/
structure State.Sound (s : State) : Prop where
  rig : s.Rig
  dlc : s.DlcSteady
  waits : s.safety.estopWaiting = true → s.safety.estopAsserted = true ∧ s.replyArriving = true
  power : s.PowerTaken

theorem State.replyArriving_congr (hl : t.link = s.link) : t.replyArriving = s.replyArriving := by
  unfold State.replyArriving
  rw [hl]

/-- A change of the tables within their laws, which DLC does not see. -/
theorem State.Sound.same (hs : s.Sound) (hr : t.Rig) (hd : s.SameDlc t) (hc : s.Calm t) : t.Sound := by
  refine ⟨hr, hs.dlc.same hd, fun hw => ?_, hs.power.calm hc⟩
  obtain ⟨h1, h2⟩ := hs.waits (hc.waiting ▸ hw)
  exact ⟨hc.asserted h1, (State.replyArriving_congr hd.link).trans h2⟩

/-- A change of the link within its laws, while no reply arrives. -/
theorem State.Sound.quiet (hs : s.Sound) (hr : t.Rig) (hd : t.DlcSteady) (hc : s.Calm t) (hn : s.replyArriving = false) :
    t.Sound := by
  refine ⟨hr, hd, fun hw => ?_, hs.power.calm hc⟩
  have := (hs.waits (hc.waiting ▸ hw)).2
  rw [hn] at this
  cases this

/-- A change of the link within its laws, under which a reply that arrives goes on to arrive. -/
theorem State.Sound.arriving (hs : s.Sound) (hr : t.Rig) (hd : t.DlcSteady) (hc : s.Calm t)
    (hn : s.replyArriving = true → t.replyArriving = true) : t.Sound := by
  refine ⟨hr, hd, fun hw => ?_, hs.power.calm hc⟩
  obtain ⟨h1, h2⟩ := hs.waits (hc.waiting ▸ hw)
  exact ⟨hc.asserted h1, hn h2⟩

theorem State.replyArriving_none (hp : s.link.poll = none) : s.replyArriving = false := by
  unfold State.replyArriving
  rw [hp]

/-! ### The deliveries of an assertion -/

theorem State.estopGroup_unmoving (s : State) (k : GroupId) :
    ((s.estopGroup k).group k).state ≠ .armed ∧ ((s.estopGroup k).group k).state ≠ .moving := by
  unfold State.estopGroup
  cases hk : (s.group k).state <;> dsimp only
  case moving =>
    rw [State.group_enterStopping_self]
    split
    · rcases Group.completeStop_settles (g := (s.group k).beginStop (.fault .estop) none none) rfl with ⟨e, -⟩ | ⟨-, e | e⟩
      · rw [e]; simp [Group.beginStop]
      · simp [e]
      · simp [e]
    · simp [Group.beginStop]
  case stopping =>
    split
    · simp [hk]
    · rw [State.group_modGroup_self]; simp [hk]
  case armed => rw [State.group_modGroup_self]; simp [Group.fault]
  case settling => rw [State.group_modGroup_self]; simp [Group.fault]
  all_goals simp [hk]

theorem State.Rig.estopGroups_unmoving (hs : s.Rig) : s.estopGroups.Unmoving := fun k => by
  rw [(State.estopGroups_spec hs.members).1 k]
  exact s.estopGroup_unmoving k

theorem State.takeDelivery_power (hs : s.Rig) : s.takeDelivery.PowerTaken := fun hp _ => by
  have ht : (s.deliverEstop s.linkFirst).safety.permit = false → (s.deliverEstop s.linkFirst).Unmoving := fun hp => by
    unfold State.deliverEstop at hp ⊢
    split at hp
    · next hf => rw [if_pos hf]; exact hs.estopLink.estopGroups_unmoving
    · next hf => rw [if_neg hf]; exact s.estopGroups.estopLink_calm.unmoving hp hs.estopGroups_unmoving
  exact ht hp

/-- DLC and GENG take an assertion, behind which none waits. -/
theorem State.Sound.takeDelivery (hr : s.Rig) (hd : s.DlcSteady) (hw : s.safety.estopWaiting = false) :
    s.takeDelivery.Sound := by
  refine ⟨hr.takeDelivery, hd.takeDelivery, fun e => ?_, s.takeDelivery_power hr⟩
  rw [s.takeDelivery_spec.2.1, hw] at e
  cases e

/-- An assertion that waits is delivered. -/
theorem State.Sound.delivered (hr : s.Rig) (hd : s.DlcSteady) (hp : s.PowerTaken) : s.deliverWaiting.Sound := by
  unfold State.deliverWaiting
  split
  · have h1 : State.Rig { s with safety := { s.safety with estopWaiting := false } } :=
      hr.of_tables rfl rfl rfl (fun _ _ => id) hr.estop id rfl rfl
    have h2 : State.DlcSteady { s with safety := { s.safety with estopWaiting := false } } :=
      hd.same (.of_slots rfl rfl rfl)
    exact .takeDelivery h1 h2 rfl
  · next hw => exact ⟨hr, hd, fun e => absurd e hw, hp⟩

theorem State.Sound.deliverWaiting (hs : s.Sound) : s.deliverWaiting.Sound := .delivered hs.rig hs.dlc hs.power

theorem State.deliverEvents_calm (s : State) : s.Calm s.deliverEvents := by
  unfold State.deliverEvents
  split
  · next e _ =>
    have h1 : s.Calm { s with eventsWaiting := none } := .of_groups rfl rfl
    exact (h1.trans (.of_chain (State.takeEvents_chain _ e))).trans (State.completeIdleRound_calm _)
  · exact .refl s

theorem State.Sound.deliverEvents (hs : s.Sound) : s.deliverEvents.Sound := by
  by_cases he : s.eventsWaiting.isSome = true
  · exact hs.quiet hs.rig.deliverEvents hs.dlc.deliverEvents s.deliverEvents_calm
      (State.replyArriving_none (hs.dlc.events he).2)
  · have : s.deliverEvents = s := by
      unfold State.deliverEvents
      cases hev : s.eventsWaiting with
      | none => rfl
      | some e => rw [hev] at he; exact absurd rfl he
    rw [this]
    exact hs

/-! ### SLB's part of an assertion -/

theorem Hoist.shown_cutPower (h : Hoist) : h.cutPower.shown = h.shown := by
  unfold Hoist.cutPower
  split <;> rfl

theorem Hoist.shown_endJog (h : Hoist) : h.endJog.shown = h.shown := by
  unfold Hoist.endJog
  split
  · next hs => exact Hoist.shown_eq rfl (by simp [hs]) (by simp)
  · rfl

theorem State.endJog_dlc (s : State) (cause : JogEndCause) : s.SameDlc (s.endJog cause) := by
  refine ⟨by rw [State.endJog_fields], by rw [State.endJog_fields], fun j => ?_⟩
  rw [State.record_endJog]
  split
  · rw [Option.map_map]
    congr 1
    exact funext Hoist.shown_endJog
  · rfl

theorem State.assertEstop_dlc (hj : s.JogOk) : s.SameDlc s.assertEstop := by
  obtain ⟨-, hl, he⟩ := s.assertEstop_fields
  refine ⟨hl, he, fun j => ?_⟩
  rw [State.record_assertEstop hj, Option.map_map]
  congr 1
  exact funext fun h => (Hoist.shown_endJog _).trans (Hoist.shown_cutPower h)

theorem State.Sound.takeEstopAssertion (hs : s.Sound) : s.takeEstopAssertion.Sound := by
  unfold State.takeEstopAssertion
  split
  · exact hs
  · next hn =>
    have hw : s.safety.estopWaiting = false := by
      cases e : s.safety.estopWaiting with
      | false => rfl
      | true => exact absurd (hs.waits e).1 hn
    have hr := hs.rig.assertEstop
    have hd := hs.dlc.same (State.assertEstop_dlc hs.rig.jog)
    obtain ⟨h1, -, -, -, h5⟩ := State.safety_assertEstop hs.rig.jog
    generalize s.assertEstop = t at hr hd h1 h5 ⊢
    dsimp only
    split
    · next hc =>
      simp only [Bool.and_eq_true] at hc
      exact ⟨hr.of_tables rfl rfl rfl (fun _ _ => id) hr.estop id rfl rfl, hd.same (.of_slots rfl rfl rfl),
        fun _ => ⟨h1, (State.replyArriving_congr rfl).trans hc.1⟩, fun _ e => by cases e⟩
    · exact .takeDelivery hr hd (h5.trans hw)

theorem State.Sound.releaseEstop (hs : s.Sound) (hw : s.safety.estopWaiting = false) : s.releaseEstop.Sound := by
  refine ⟨hs.rig.releaseEstop, ?_, fun e => ?_, ?_⟩
  all_goals unfold State.releaseEstop at *
  · split
    · exact hs.dlc.same (.of_slots rfl rfl rfl)
    · exact hs.dlc
  · split at e
    · have e : s.safety.estopWaiting = true := e
      rw [hw] at e
      cases e
    · rw [hw] at e
      cases e
  · split
    · exact fun hp _ k => hs.power hp hw k
    · exact hs.power

/-! ### Polls -/

theorem State.replyArriving_receiving {p : PollInFlight} (hp : s.link.poll = some p) :
    s.replyArriving = true ↔ ∃ early, p.stage = .receiving early := by
  unfold State.replyArriving
  rw [hp]
  dsimp only
  cases p.stage <;> simp

theorem State.Sound.takeResponseExpiry (hs : s.Sound) : s.takeResponseExpiry.Sound := by
  unfold State.takeResponseExpiry
  split
  · next p hp =>
    split
    · next left hst =>
      have hn : s.replyArriving = false := by
        rw [Bool.eq_false_iff, ne_eq, State.replyArriving_receiving hp, hst]
        rintro ⟨early, e⟩
        cases e
      obtain ⟨hr, -, hstart, -⟩ := hs.dlc.open hp
      have ht : (if p.orphaned = true then s else s.miss p.slot .timeout).Rig ∧
          s.Taken (if p.orphaned = true then s else s.miss p.slot .timeout) := by
        split
        · exact ⟨hs.rig, .refl s⟩
        · refine ⟨?_, .miss hr (by rw [hp]; rfl) ..⟩
          cases hrec : s.record p.slot with
          | some h => exact hs.rig.miss hrec hs.dlc.settings _
          | none =>
            next ho =>
            have := (hs.dlc.poll p hp (by simpa using ho)).1
            rw [hrec] at this
            cases this
      obtain ⟨h1, h2⟩ := ht
      generalize (if p.orphaned = true then s else s.miss p.slot .timeout) = t at h1 h2 ⊢
      exact hs.quiet (h1.endPoll ..)
        (.endPoll (h2.settings hs.dlc.settings) (h2.round.trans hr) ((congrArg _ h2.start).trans hstart) ..)
        (h2.calm.trans (t.endPoll_calm ..)) hn
    all_goals exact hs
  · exact hs

theorem State.Sound.takeFrame (hs : s.Sound) (bytes : List Byte) (rest : Nat) : (s.takeFrame bytes rest).Sound := by
  unfold State.takeFrame
  split
  · next p hp =>
    split
    · next early hst =>
      obtain ⟨hr, -, hstart, hev⟩ := hs.dlc.open hp
      have ht : (if p.orphaned = true then s else s.judgeAndTake p early bytes).Rig ∧
          s.Taken (if p.orphaned = true then s else s.judgeAndTake p early bytes) := by
        split
        · exact ⟨hs.rig, .refl s⟩
        · exact ⟨hs.rig.judgeAndTake hs.dlc.settings hev .., .judgeAndTake hr (by rw [hp]; rfl) ..⟩
      obtain ⟨h1, h2⟩ := ht
      generalize (if p.orphaned = true then s else s.judgeAndTake p early bytes) = t at h1 h2 ⊢
      exact .delivered (h1.endPoll ..)
        (.endPoll (h2.settings hs.dlc.settings) (h2.round.trans hr) ((congrArg _ h2.start).trans hstart) ..)
        (hs.power.calm (h2.calm.trans (t.endPoll_calm ..)))
    all_goals exact hs
  · next hp =>
    split
    · have hd := hs.dlc.modLine hp (l := s.link.endDiscard rest) rfl rfl id
      exact hs.quiet (hs.rig.modLink rfl) hd (.of_groups rfl rfl) (State.replyArriving_none hp)
    · exact hs

theorem State.Sound.takeFirstStartBit (hs : s.Sound) (elapsed : Nat) : (s.takeFirstStartBit elapsed).Sound := by
  unfold State.takeFirstStartBit
  split
  · next p hp =>
    split
    · next left hst =>
      split
      · have hline : s.link.line = .quiet := by
          have := hs.dlc.line
          unfold Link.LineOk at this
          rw [hp] at this
          obtain ⟨-, -, h3⟩ := this
          rw [hst] at h3
          exact h3.1
        have hd := hs.dlc.stage hp (st := .receiving (decide (elapsed < Config.turnaroundMin)))
          (l := { s.link with poll := some { p with stage := .receiving (decide (elapsed < Config.turnaroundMin)) } })
          (by rw [← hline]) trivial
        exact hs.arriving (hs.rig.modLink rfl) hd (.of_groups rfl rfl) fun _ => rfl
      · exact hs.takeResponseExpiry
    all_goals exact hs
  · exact hs

theorem State.Sound.takeEndOfPoll (hs : s.Sound) : s.takeEndOfPoll.Sound := by
  have hn : s.takeEndOfPoll = s ∨ s.replyArriving = false := by
    unfold State.takeEndOfPoll
    split
    · next p hp =>
      split
      · next hst =>
        refine .inr ?_
        rw [Bool.eq_false_iff, ne_eq, State.replyArriving_receiving hp, hst]
        rintro ⟨early, e⟩
        cases e
      · exact .inl rfl
    · exact .inl rfl
  rcases hn with e | hn
  · rw [e]; exact hs
  · refine hs.quiet hs.rig.takeEndOfPoll hs.dlc.takeEndOfPoll ?_ hn
    unfold State.takeEndOfPoll
    split
    · split
      · exact .of_groups rfl rfl
      · exact .refl s
    · exact .refl s

theorem State.Sound.takeRoundStart (hs : s.Sound) : s.takeRoundStart.Sound := by
  have hn : s.takeRoundStart = s ∨ s.link.poll = none := by
    have h3 := hs.dlc.rounds
    unfold State.RoundsOk at h3
    unfold State.takeRoundStart
    split
    · next hround =>
      rw [hround] at h3
      exact .inr h3.2.1
    · exact .inl rfl
  rcases hn with e | hn
  · rw [e]; exact hs
  · refine hs.quiet hs.rig.takeRoundStart hs.dlc.takeRoundStart ?_ (State.replyArriving_none hn)
    unfold State.takeRoundStart
    split
    · split
      · exact .refl s
      · split <;> exact .of_groups rfl rfl
    · exact .refl s

theorem State.Sound.takeHaltAll (hs : s.Sound) : s.takeHaltAll.Sound := by
  refine hs.arriving hs.rig.takeHaltAll hs.dlc.takeHaltAll ?_ fun e => ?_
  · unfold State.takeHaltAll
    split
    · exact .of_groups rfl rfl
    · exact .refl s
  · unfold State.takeHaltAll
    split <;> exact e

theorem State.Sound.pollNext (hs : s.Sound) (hev : s.eventsWaiting = none) : s.pollNext.Sound := by
  have hn : s.pollNext = s ∨ s.link.poll = none := by
    unfold State.pollNext
    split
    · next hc => exact .inr (Link.free_poll hc.2.1)
    · exact .inl rfl
  rcases hn with e | hn
  · rw [e]; exact hs
  · refine hs.quiet hs.rig.pollNext (hs.dlc.pollNext hev) ?_ (State.replyArriving_none hn)
    unfold State.pollNext
    split
    · split
      · exact .refl s
      · split
        · exact .refl s
        · exact .of_groups rfl rfl
    · exact .refl s

theorem State.Sound.repace (hs : s.Sound) : s.repace.Sound := by
  have e : s.repace.groups = s.groups ∧ s.repace.safety = s.safety ∧ s.repace.link.poll = s.link.poll := by
    unfold State.repace
    split
    · split <;> exact ⟨rfl, rfl, rfl⟩
    · exact ⟨rfl, rfl, rfl⟩
  obtain ⟨h1, h2, h3⟩ := e
  refine hs.arriving hs.rig.repace hs.dlc.repace (.of_groups h2 h1) fun ha => ?_
  unfold State.replyArriving at ha ⊢
  rw [h3]
  exact ha

theorem PollInFlight.receiving_tick (p : PollInFlight) (early : Bool) :
    p.tick.stage = .receiving early ↔ p.stage = .receiving early := by
  unfold PollInFlight.tick
  cases hst : p.stage <;> simp [hst]

theorem State.Sound.count (hs : s.Sound) : s.count.Sound := by
  refine hs.arriving hs.rig.count hs.dlc.count ⟨id, rfl, id, fun _ hu k => ?_⟩ fun ha => ?_
  · have e : s.count.group k = (s.group k).tick := State.group_mapGroups s Group.tick k
    rw [e]
    exact hu k
  · have hp : s.count.link.poll = s.link.poll.map PollInFlight.tick := s.link.tick_kept.1
    cases hq : s.link.poll with
    | none =>
      rw [State.replyArriving_none hq] at ha
      cases ha
    | some p =>
      rw [hq] at hp
      obtain ⟨early, he⟩ := (State.replyArriving_receiving hq).1 ha
      exact (State.replyArriving_receiving hp).2 ⟨early, (p.receiving_tick early).2 he⟩

end Sys2Proof.Machine

/-! ## Every operation keeps the state of a run -/

namespace Sys2Proof.Machine

variable {s t : State} {i : Slot} {h r : Hoist} {k : GroupId}

theorem State.Inv.sound (hs : s.Inv) : s.Sound := by
  obtain ⟨power, powerless⟩ := hs.power
  obtain ⟨memberStates, grouped⟩ := hs.motion
  obtain ⟨settings, line, rounds, poll⟩ := hs.link
  obtain ⟨waits, events⟩ := hs.waiting
  refine ⟨⟨hs.records, hs.members, hs.groups, fun k _ => memberStates k, grouped, power, fun hp => (powerless hp).1, hs.jog⟩,
    ⟨settings, line, ?_, poll, events⟩, waits, fun hp hw => (powerless hp).2 hw⟩
  unfold State.RoundOk at rounds
  unfold State.RoundsOk
  cases hround : s.link.round <;> rw [hround] at rounds
  case between pace =>
    obtain ⟨a, b, c, -⟩ := rounds
    exact ⟨a, b, c⟩
  all_goals exact rounds

theorem State.Sound.chain (hs : s.Sound) (h : s.GengChain t) : t.Sound := hs.same (h.rig hs.rig) (.of_chain h) (.of_chain h)

theorem State.Sound.edits (hs : s.Sound) (h : s.EditsGroup t) : t.Sound := by
  refine hs.same (hs.rig.edits h) ?_ (.of_edits h)
  have e := h.eq
  exact .of_slots (by rw [e]) (by rw [e]) (by rw [e])

theorem State.Sound.editsSlot (hs : s.Sound) (h : s.EditsSlot t) : t.Sound := by
  refine hs.same (hs.rig.editsSlot h) ?_ ?_
  · rcases h with rfl | ⟨i, e, rfl, he | ⟨h, r, hr, he, hre⟩⟩
    · exact .refl _
    · exact .setSlot s i (by rw [he])
    · refine .setSlot s i ?_
      have hf := he.fields
      rw [hre, hr, Option.map_some, Option.map_some, Hoist.shown_congr (h := h) (by rw [hf]) (by rw [hf])]
  · rcases h with rfl | ⟨i, e, rfl, -⟩
    · exact .refl _
    · exact .of_groups rfl rfl

/-- Nothing changes but the lines, and what decides on the power stays. -/
theorem State.Sound.lines (hs : s.Sound) (hr : t.Rig) (hsl : t.slots = s.slots) (hg : t.groups = s.groups)
    (hl : t.link = s.link) (he : t.eventsWaiting = s.eventsWaiting)
    (hp : t.safety.permit = false → s.safety.permit = false)
    (hw : t.safety.estopWaiting = s.safety.estopWaiting) (ha : t.safety.estopAsserted = s.safety.estopAsserted) :
    t.Sound :=
  hs.same hr (.of_slots hl he hsl) ⟨hp, hw, by rw [ha]; exact id, fun _ hu k => by rw [State.group, hg]; exact hu k⟩

theorem State.Sound.clearAttention (hs : s.Sound) (kind index : Byte) : (s.clearAttention kind index).1.Sound := by
  have hr := hs.rig.clearAttention kind index
  rcases s.clearAttention_cases kind index with h | h | e
  · exact hs.edits h
  · exact hs.editsSlot h
  · rw [e] at hr ⊢
    exact hs.lines hr rfl rfl rfl rfl id rfl rfl

/-! ### Slots that come and go -/

theorem State.Sound.leaveSlot (hs : s.Sound) (hr : s.record i = some h) (hj : h.state ≠ .jogging) (hg : h.group = none)
    (cause : Release) : (s.leaveSlot i h cause).Sound := by
  refine hs.arriving (hs.rig.leaveSlot hr hj hg cause) (hs.dlc.leaveSlot i h cause) (s.leaveSlot_calm i h cause) fun ha => ?_
  cases hp : s.link.poll with
  | none =>
    rw [State.replyArriving_none hp] at ha
    cases ha
  | some p =>
    have e := State.link_leaveSlot_open (hs.dlc.open hp).1 (by rw [hp]; rfl) i h cause
    have hp' : (s.leaveSlot i h cause).link.poll = some (p.orphan i) := by
      rw [e]
      show s.link.poll.map _ = _
      rw [hp]
      rfl
    obtain ⟨early, he⟩ := (State.replyArriving_receiving hp).1 ha
    exact (State.replyArriving_receiving hp').2 ⟨early, (p.orphan_fields i).2.2.2.1.trans he⟩

theorem State.Sound.admitSlot (hs : s.Sound) (slot address : Byte) (lower upper trim : BitVec 16) :
    (s.admitSlot slot address lower upper trim).1.Sound := by
  have hrig := hs.rig.admitSlot slot address lower upper trim
  rcases s.admitSlot_cases slot address lower upper trim with e | ⟨i, a, lo, up, tr, hr, -, -, -, -, e⟩ <;> rw [e] at hrig ⊢
  · exact hs
  · refine hs.arriving hrig (hs.dlc.entered hr _) (s.entered_calm i _) fun ha => ?_
    have hp : (s.entered i (Hoist.admitted a lo up tr)).link.poll = s.link.poll := by
      unfold State.entered State.enterPollList
      dsimp only
      split <;> rfl
    unfold State.replyArriving at ha ⊢
    rw [hp]
    exact ha

theorem State.leaveGroup_quiet (hr : s.record i = some h) : s.SameDlc (s.leaveGroup i) ∧
    (s.groupAllows h GroupState.atRest = true → s.Calm (s.leaveGroup i)) := by
  unfold State.leaveGroup
  rw [hr, Option.bind_some]
  cases hg : h.group with
  | none => exact ⟨.refl s, fun _ => .refl s⟩
  | some k =>
    refine ⟨(State.SameDlc.modGroup s k _).trans
      (.modRecord (s := s.modGroup k fun g => g.dropMember i) (h := h) hr rfl), fun ha => ?_⟩
    have hk := (State.groupAllows_iff ..).1 ha k hg
    refine .of_states rfl fun j => ?_
    rw [State.group_modRecord, State.group_modGroup]
    split
    · have := Group.state_dropMember hk i
      refine .inr ?_
      rcases (GroupState.atRest_iff _).1 this with e | e | e <;> simp [e]
    · exact .inl rfl

theorem State.Sound.leaveGroup (hs : s.Sound) (hr : s.record i = some h)
    (hst : h.state = .ready ∨ h.state = .lost ∨ h.state = .admitting)
    (ha : s.groupAllows h GroupState.atRest = true) : (s.leaveGroup i).Sound := by
  obtain ⟨h1, h2⟩ := State.leaveGroup_quiet hr
  exact hs.same (hs.rig.leaveGroup hr hst ha).1 h1 (h2 ha)

theorem State.Sound.retire (hs : s.Sound) (slot : Byte) : (s.retire slot).1.Sound := by
  have hrig := hs.rig.retire slot
  rcases s.retire_cases slot with e | ⟨i, h, hr, ha, hcase⟩
  · rw [e]; exact hs
  · have hst : h.state = .ready ∨ h.state = .lost ∨ h.state = .admitting := by tauto
    obtain ⟨-, h2, -, -⟩ := hs.rig.leaveGroup hr hst ha
    have ht := hs.leaveGroup hr hst ha
    rcases hcase with ⟨hst, e⟩ | ⟨hst, e⟩ <;> rw [e] at hrig ⊢
    · exact ht.same hrig (.modRecord h2 (Hoist.shown_eq rfl (by simp [hst]) (by simp))) (.of_groups rfl rfl)
    · exact ht.leaveSlot h2 (by rcases hst with e | e <;> simp [e]) rfl .retiredDirect

theorem State.Sound.assign (hs : s.Sound) (slot group : Byte) : (s.assign slot group).1.Sound := by
  have hrig := hs.rig.assign slot group
  rcases s.assign_cases slot group with e | ⟨i, h, hr, hst, ha, hcase⟩
  · rw [e]; exact hs
  · obtain ⟨-, h2, -, h4⟩ := hs.rig.leaveGroup hr (hst.imp_right .inl) ha
    have ht := hs.leaveGroup hr (hst.imp_right .inl) ha
    rcases hcase with e | ⟨k, hk, -, e⟩ <;> rw [e] at hrig ⊢
    · exact ht
    · refine ht.same hrig ((State.SameDlc.modRecord h2 (f := fun h => { h with group := some k })
        (Hoist.shown_congr rfl rfl)).trans (.modGroup ..)) (.of_states rfl fun j => ?_)
      unfold State.joinGroup
      rw [State.group_modGroup]
      split
      · have := (Group.state_addMember (h4 k hk) i).1
        refine .inr ?_
        rw [State.group_modRecord]
        rcases (GroupState.atRest_iff _).1 this with e | e | e <;> simp [e]
      · exact .inl rfl

/-! ### The jog, and the lines -/

theorem State.Sound.endJog (hs : s.Sound) (cause : JogEndCause) : (s.endJog cause).Sound :=
  hs.same (hs.rig.endJog cause) (s.endJog_dlc cause) (s.endJog_calm cause)

theorem State.Sound.takeJog (hs : s.Sound) (slot direction : Byte) (distance : BitVec 16) :
    (s.takeJog slot direction distance).1.Sound := by
  have hrig := hs.rig.takeJog slot direction distance
  rcases s.takeJog_cases slot direction distance with e | ⟨i, h, dir, d, p, hr, hst, -, -, -, -, -, -, e⟩ <;>
    rw [e] at hrig ⊢
  · exact hs
  · refine hs.same hrig (State.SameDlc.trans (State.SameDlc.modRecord hr (f := fun h =>
      { h with
        state := .jogging, demand := h.jogDemand, direction := dir.direction, jogStart := some p, jogDistance := some d })
      (Hoist.shown_eq rfl (by simp [hst]) (by simp))) (.of_slots rfl rfl rfl)) ⟨id, rfl, id, fun _ hu => hu⟩

theorem State.Sound.holdJog (hs : s.Sound) : s.holdJog.1.Sound := by
  have hr := hs.rig.holdJog
  unfold State.holdJog at hr ⊢
  split at hr
  · next h =>
    rw [if_pos h]
    exact hs.lines hr rfl rfl rfl rfl id rfl rfl
  · next h =>
    rw [if_neg h]
    exact hs

theorem State.Sound.takePermit (hs : s.Sound) : s.takePermit.1.Sound := by
  have hr := hs.rig.takePermit
  unfold State.takePermit at hr ⊢
  split at hr
  · next h =>
    rw [if_pos h]
    exact hs
  · next h =>
    rw [if_neg h]
    exact hs.lines hr rfl rfl rfl rfl (fun e => by cases e) rfl rfl

theorem State.Sound.setCue (hs : s.Sound) (line : CueLine) (high : Bool) :
    State.Sound { s with safety := s.safety.setCue line high } := by
  obtain ⟨h1, h2, -, -, h5⟩ := s.safety.setCue_fields line high
  exact hs.lines (hs.rig.setCue line high) rfl rfl rfl rfl (by rw [h2]; exact id) h5 h1

theorem State.Sound.riseCue (hs : s.Sound) (line : CueLine) : (s.riseCue line).Sound := by
  unfold State.riseCue
  split
  · exact hs
  · exact (hs.setCue line true).chain (State.startAll_chain _ _)

theorem State.Sound.fallCue (hs : s.Sound) (line : CueLine) : (s.fallCue line).Sound := by
  rcases s.fallCue_cases line with e | h
  · rw [e]; exact hs
  · exact (hs.setCue line false).chain h

theorem State.Sound.haltGroup (hs : s.Sound) (k : GroupId) : (s.haltGroup k).Sound := by
  rcases s.haltGroup_cases k with he | ⟨hm, e⟩
  · exact hs.edits he
  · rw [e]
    exact hs.chain (.single (.stop k _ _ _ hm))

/-! ### The timers -/

theorem State.Sound.takeStepExpiry (hs : s.Sound) (ht : s.takeStepExpiry k = some t) : t.Sound := by
  have hrig := hs.rig.takeStepExpiry ht
  rcases State.takeStepExpiry_cases ht with rfl | ⟨hk, g, hg, rfl⟩
  · exact hs
  · obtain ⟨g', hg', -, hst, -⟩ := (hs.rig.groups k).profileStep hk (s.minRatedSpeed k)
    cases hg.symm.trans hg'
    obtain ⟨dir, reference, cue, cruise, hp⟩ := (hs.rig.groups k).profiles hk
    refine hs.same hrig (.of_slots rfl rfl rfl) (.of_states rfl fun j => .inl ?_)
    rw [State.group_withGroup]
    split
    · next e => subst e; rw [hst, hp.moving]
    · rfl

theorem State.Sound.takeLandingExpiry (hs : s.Sound) (k : GroupId) : (s.takeLandingExpiry k).Sound := by
  rcases hs.rig.takeLandingExpiry_cases k with h | h
  · exact hs.chain h
  · exact hs.deliverEvents.chain h

/-! ### LINKCFG and RESTART -/

theorem SlotEntry.shown_rethreshold (e : SlotEntry) (old new : Nat) :
    (e.rethreshold old new).record.map Hoist.shown = e.record.map Hoist.shown := by
  unfold SlotEntry.rethreshold
  cases he : e.record with
  | none => rw [he]
  | some h =>
    dsimp only
    split
    · next hc =>
      rw [Option.map_some]
      exact congrArg some (Hoist.shown_eq rfl (by simp [hc.1]) (by simp [Hoist.lose]))
    · split
      · rfl
      · rw [he]

theorem State.Sound.configureLink (hs : s.Sound) (timeout : BitVec 16) (threshold : Byte) (idle : BitVec 16) :
    (s.configureLink timeout threshold idle).1.Sound := by
  have hrig := hs.rig.configureLink hs.dlc.settings timeout threshold idle
  rcases s.configureLink_cases timeout threshold idle with
    e | ⟨hf, wait, new, pause, h1, h2, h3, h4, h5, h6, h7, h8, e⟩ <;> rw [e] at hrig ⊢
  · exact hs
  · obtain ⟨ht, hsl, hgr⟩ := State.applyThreshold_spec
      (s := { s with link := { s.link with responseTimeout := wait, lossThreshold := new, idleInterval := pause } })
      (s.quiet_iff.2 hf).1 s.link.lossThreshold new
    generalize State.applyThreshold _ _ _ = t at ht hsl hgr hrig ⊢
    have hd : State.DlcSteady
        { s with link := { s.link with responseTimeout := wait, lossThreshold := new, idleInterval := pause } } :=
      ⟨⟨h1, h2, h3, h4, h5, h6, h7, h8⟩, hs.dlc.line, hs.dlc.rounds, hs.dlc.poll, hs.dlc.events⟩
    refine hs.arriving hrig (hd.same ⟨ht.link, ht.eventsWaiting, fun j => ?_⟩) (.of_states ht.safety fun k => .inl ?_)
      fun ha => ?_
    · rw [State.record, hsl]
      exact SlotEntry.shown_rethreshold ..
    · rw [hgr, Group.state_postIdle]
      rfl
    · unfold State.replyArriving at ha ⊢
      rw [ht.link]
      exact ha

theorem State.Sound.takeRestart (hs : s.Sound) : s.takeRestart.1.Sound := by
  have hrig := hs.rig.takeRestart
  unfold State.takeRestart at hrig ⊢
  split at hrig
  · next h =>
    rw [if_pos h]
    exact hs
  · next h =>
    rw [if_neg h]
    obtain ⟨ht, hsl, hgr⟩ := s.restart_spec
    obtain ⟨-, hl, hsf, -, -, -, -, hev⟩ := s.restartBlocks_fields
    have hlink := ht.link.trans hl
    have hsafe := ht.safety.trans hsf
    have hevent := ht.eventsWaiting.trans hev
    dsimp only at hrig ⊢
    generalize s.restartBlocks.repostAll = t at hsl hgr hrig hlink hsafe hevent ⊢
    refine hs.same hrig ⟨hlink, hevent, fun j => ?_⟩ ⟨by rw [hsafe]; exact id, by rw [hsafe], by rw [hsafe]; exact id,
      fun _ _ k => ?_⟩
    · rw [State.record, hsl]
      show ((s.record j).map _).map _ = _
      rw [Option.map_map]
      rfl
    · rw [hgr, Group.state_postFirst]
      rcases (s.group k).state_restart with e | e <;> simp [e]

/-! ### All of them -/

theorem sound_kept : Kept State.Sound where
  port s p hs := hs.lines (hs.rig.of_eq rfl rfl rfl rfl rfl) rfl rfl rfl rfl id rfl rfl
  pending s l hs := hs.lines (hs.rig.of_eq rfl rfl rfl rfl rfl) rfl rfl rfl rfl id rfl rfl
  repace _ hs := hs.repace
  takeLook s kind block index hs := by
    unfold State.takeLook
    split
    · exact hs
    · exact hs.lines (hs.rig.of_eq rfl rfl rfl rfl rfl) rfl rfl rfl rfl id rfl rfl
  clearAttention _ kind index hs := hs.clearAttention kind index
  admitSlot _ slot address lower upper trim hs := hs.admitSlot slot address lower upper trim
  amend s _ _ _ _ _ _ _ _ hs := hs.editsSlot (s.amend_edits ..)
  retire _ slot hs := hs.retire slot
  assign _ slot group hs := hs.assign slot group
  clearFlags s slot hs := hs.editsSlot (s.clearFlags_edits slot)
  setGroup s _ _ _ _ _ _ _ _ _ _ hs := hs.edits (s.setGroup_edits ..)
  queueCue s _ _ _ _ _ _ hs := hs.edits (s.queueCue_edits ..)
  flush s group hs := hs.edits (s.flush_edits group)
  arm s group hs := hs.edits (s.arm_edits group)
  startMove s k hs := hs.chain (s.startMove_chain k)
  holdJog _ hs := hs.holdJog
  holdGroup s k hs := hs.edits (s.holdGroup_edits k)
  haltGroup _ k hs := hs.haltGroup k
  stageSpeed s _ _ hs := hs.edits (s.stageSpeed_edits ..)
  stageTarget s _ _ hs := hs.edits (s.stageTarget_edits ..)
  ackFault s group hs := hs.edits (s.ackFault_edits group)
  takeJog _ slot direction distance hs := hs.takeJog slot direction distance
  endJog _ cause hs := hs.endJog cause
  configureLink _ timeout threshold idle hs := hs.configureLink timeout threshold idle
  takePermit _ hs := hs.takePermit
  takeRestart _ hs := hs.takeRestart
  afterReset a b c d now n l := by
    have hs := (resetMeetsInvariant a b c d).sound
    generalize State.afterReset a b c d = s at hs ⊢
    exact hs.lines (hs.rig.of_eq rfl rfl rfl rfl rfl) rfl rfl rfl rfl id rfl rfl
  takeEstopAssertion _ hs := hs.takeEstopAssertion
  deliverWaiting _ hs := hs.deliverWaiting
  deliverEvents _ hs := hs.deliverEvents
  releaseEstop _ hw hs := hs.releaseEstop hw
  riseCue _ line hs := hs.riseCue line
  fallCue _ line hs := hs.fallCue line
  takeStepExpiry _ _ hs _ ht := hs.takeStepExpiry ht
  takeHoldExpiry _ k hs := hs.chain (hs.rig.groups.holdExpiry_chain k)
  takeLandingExpiry _ k hs := hs.takeLandingExpiry k
  takeStopExpiry _ k hs := hs.chain (hs.rig.groups.stopExpiry_chain k)
  takeResponseExpiry _ hs := hs.takeResponseExpiry
  takeRoundStart _ hs := hs.takeRoundStart
  pollNext _ he hs := hs.pollNext he
  takeEndOfPoll _ hs := hs.takeEndOfPoll
  takeHaltAll _ hs := hs.takeHaltAll
  takeFrame _ bytes rest hs := hs.takeFrame bytes rest
  takeFirstStartBit _ elapsed hs := hs.takeFirstStartBit elapsed
  count _ hs := hs.count

end Sys2Proof.Machine

/-! ## The port -/

namespace Sys2Proof.Machine

variable {s t : State} {p : Port} {i : Slot} {h : Hoist}

/-! ### What the port itself does -/

/-- A transaction is open, and the port keeps its laws. -/
def Port.Open (p : Port) : Prop := p.Ok ∧ p.phase ≠ .closed

theorem Port.Ok.dropWalk (h : p.Ok) : Port.Ok { p with walk := none } := by
  obtain ⟨h1, h2, h3, h4, -⟩ := h
  exact ⟨h1, fun e => ⟨(h2 e).1, rfl, (h2 e).2.2⟩, h3, h4, fun w hw => by cases hw⟩

/-- An unfinished command still wants an argument (R164). -/
def Phase.Fits : Phase → Prop
  | .arguments code got => got.length < code.argCount
  | _ => True

/-- A transaction goes on in another phase. -/
theorem Port.Open.goesOn (h : p.Open) {ph : Phase} (hp : ph ≠ .closed) (m : Option Byte) (ha : ph.Fits) :
    Port.Open { p with phase := ph, miso := m } := by
  obtain ⟨⟨h1, -, -, h4, h5⟩, ho⟩ := h
  exact ⟨⟨fun e => absurd (h1 e) ho, fun e => absurd e hp, by cases ph <;> exact ha, h4, h5⟩, hp⟩

theorem Port.Open.returning (h : p.Open) (m : Option Byte) : Port.Open { p with miso := m } := by
  obtain ⟨⟨h1, -, h3, h4, h5⟩, ho⟩ := h
  exact ⟨⟨h1, fun e => absurd e ho, h3, h4, h5⟩, ho⟩

theorem Port.Open.walk (h : p.Open) {w : WalkPosition} (hw : w.index < w.block.kind.count) :
    Port.Open { p with walk := some w } := by
  obtain ⟨⟨h1, h2, h3, h4, -⟩, ho⟩ := h
  exact ⟨⟨h1, fun e => absurd e ho, h3, h4, fun v hv => by cases hv; exact hw⟩, ho⟩

/-- The block that a LOOK names is one of its kind (R171). -/
theorem kind_lookBlockOf {k : LookKind} {block : Byte} {b : LookBlock} (h : lookBlockOf k block = some b) : b.kind = k := by
  unfold lookBlockOf at h
  cases k <;> dsimp only at h <;> (repeat' split at h) <;> cases h <;> rfl

theorem Port.lookTarget_lt (p : Port) (kind block index : Byte) :
    ∀ w ∈ p.lookTarget kind block index, w.index < w.block.kind.count := by
  intro w hw
  unfold Port.lookTarget at hw
  split at hw
  · cases hw
  · split at hw
    · cases hw
    · next k _ _ b hb =>
      split at hw
      · cases hw
      · next n hn =>
        cases hw
        show n < b.kind.count
        rw [kind_lookBlockOf hb]
        unfold Port.lookIndex at hn
        cases k
        case device => cases hn; decide
        all_goals
          dsimp only at hn
          split at hn
          · split at hn
            · next hlt => cases hn; exact hlt
            · cases hn
          · split at hn
            · next hlt => cases hn; exact hlt
            · cases hn

theorem LookKind.count_pos (k : LookKind) : 0 < k.count := by cases k <;> decide

theorem Port.Ok.continueTarget (h : p.Ok) : p.continueTarget.index < p.continueTarget.block.kind.count := by
  obtain ⟨-, -, -, h4, -⟩ := h
  unfold Port.continueTarget
  split
  · exact Nat.mod_lt _ (LookKind.count_pos _)
  · exact h4

theorem Port.Open.looked (h : p.Open) {w : WalkPosition} (hw : w.index < w.block.kind.count) : (p.looked w).Open := by
  have hk := h.walk hw
  unfold Port.looked
  split
  · exact hk
  · obtain ⟨⟨h1, h2, h3, -, h5⟩, ho⟩ := hk
    exact ⟨⟨h1, fun e => absurd e ho, h3, hw, h5⟩, ho⟩

theorem Port.Open.respond {r : State × Answer} (h : r.1.port.Open) : (respond r).port.Open :=
  h.goesOn (ph := .response turnaroundByte (r.2.status.code :: r.2.data) false) (by simp) _ trivial

theorem Port.Open.receive {b : Byte} {rest : List Byte} (h : p.Open) (thenIgnore : Bool) :
    (p.returnByte b rest thenIgnore).Open := by
  unfold Port.returnByte
  refine h.goesOn ?_ _ ?_
  · cases rest <;> cases thenIgnore <;> simp
  · cases rest <;> cases thenIgnore <;> trivial

/-! ### The port under the owners' work -/

/-- The owners' work leaves the port, but for LOOK and RESTART. -/
theorem KeptByOwners.of_port {P : Port → Prop}
    (look : ∀ (s : State) (kind block index : Byte), P s.port → P (s.takeLook kind block index).1.port)
    (restart : ∀ s : State, P s.port → P s.takeRestart.1.port) : KeptByOwners fun s => P s.port := by
  have same : ∀ {s t : State}, t.port = s.port → P s.port → P t.port := fun e h => e ▸ h
  have edits : ∀ {s t : State}, s.EditsGroup t → P s.port → P t.port := fun h => same (by rw [h.eq])
  have editsSlot : ∀ {s t : State}, s.EditsSlot t → P s.port → P t.port := fun h => by
    rcases h with rfl | ⟨i, e, rfl, -⟩ <;> exact id
  have leave : ∀ (s : State) (i : Slot), (s.leaveGroup i).port = s.port := fun s i => by
    unfold State.leaveGroup
    split <;> rfl
  refine {
    takeLook := look, takeRestart := restart, clearAttention := ?clearAttention, admitSlot := ?admitSlot
    amend := fun s _ _ _ _ _ _ _ _ => editsSlot (s.amend_edits ..)
    clearFlags := fun s slot => editsSlot (s.clearFlags_edits slot)
    setGroup := fun s _ _ _ _ _ _ _ _ _ _ => edits (s.setGroup_edits ..)
    queueCue := fun s _ _ _ _ _ _ => edits (s.queueCue_edits ..)
    flush := fun s group => edits (s.flush_edits group)
    arm := fun s group => edits (s.arm_edits group)
    startMove := fun s k => same (s.startMove_work k).tables.port
    holdGroup := fun s k => edits (s.holdGroup_edits k)
    stageSpeed := fun s _ _ => edits (s.stageSpeed_edits ..)
    stageTarget := fun s _ _ => edits (s.stageTarget_edits ..)
    ackFault := fun s group => edits (s.ackFault_edits group)
    endJog := fun s cause => same (s.endJog_kept cause).port
    retire := ?retire, assign := ?assign, holdJog := ?holdJog, haltGroup := ?haltGroup, takeJog := ?takeJog
    configureLink := ?configureLink, takePermit := ?takePermit }
  case clearAttention =>
    intro s kind index
    rcases s.clearAttention_cases kind index with h | h | e
    · exact edits h
    · exact editsSlot h
    · rw [e]; exact id
  case admitSlot =>
    intro s slot address lower upper trim
    rcases s.admitSlot_cases slot address lower upper trim with e | ⟨i, a, lo, up, tr, -, -, -, -, -, e⟩ <;> rw [e]
    · exact id
    · exact same (State.enterPollList_spec ..).2.2.2.2.2.port
  case retire =>
    intro s slot
    rcases s.retire_cases slot with e | ⟨i, h, -, -, ⟨-, e⟩ | ⟨-, e⟩⟩ <;> rw [e]
    · exact id
    · exact same (leave s i)
    · exact same ((State.leaveSlot_spec _ i h _).2.2.2.port.trans (leave s i))
  case assign =>
    intro s slot group
    rcases s.assign_cases slot group with e | ⟨i, h, -, -, -, e | ⟨k, -, -, e⟩⟩ <;> rw [e]
    · exact id
    · exact same (leave s i)
    · exact same (leave s i)
  case holdJog =>
    intro s
    unfold State.holdJog
    split <;> exact id
  case haltGroup =>
    intro s k
    rcases s.haltGroup_cases k with h | ⟨hm, e⟩
    · exact edits h
    · rw [e]; exact same (s.enterStopping_work ..).tables.port
  case takeJog =>
    intro s slot direction distance
    rcases s.takeJog_cases slot direction distance with e | ⟨i, h, dir, d, q, -, -, -, -, -, -, -, -, e⟩ <;> rw [e] <;>
      exact id
  case configureLink =>
    intro s timeout threshold idle
    rcases s.configureLink_cases timeout threshold idle with e | ⟨hf, wait, new, pause, -, -, -, -, -, -, -, -, e⟩ <;> rw [e]
    · exact id
    · obtain ⟨ht, -, -⟩ := State.applyThreshold_spec
        (s := { s with link := { s.link with responseTimeout := wait, lossThreshold := new, idleInterval := pause } })
        (s.quiet_iff.2 hf).1 s.link.lossThreshold new
      have hp := ht.port
      generalize State.applyThreshold _ _ _ = t at hp ⊢
      exact same hp
  case takePermit =>
    intro s
    unfold State.takePermit
    split <;> exact id

theorem State.port_takeRestart (s : State) : s.takeRestart.1.port = s.port ∨ s.takeRestart.1.port =
    { s.port with cursorBlock := .hoistStatus, cursorStart := 0, firstLook := false, walk := none } := by
  unfold State.takeRestart
  split
  · exact .inl rfl
  · exact .inr (s.restart_spec.1.port.trans s.restartBlocks_fields.2.2.2.1)

/-- A transaction stays open under the owners' work. -/
theorem open_kept : KeptByOwners fun s => s.port.Open := by
  refine .of_port (P := Port.Open) (fun s kind block index hs => ?_) fun s hs => ?_
  · unfold State.takeLook
    split
    · exact hs
    · next w hw => exact hs.looked (s.port.lookTarget_lt kind block index w hw)
  · rcases s.port_takeRestart with e | e <;> rw [e]
    · exact hs
    · obtain ⟨⟨h1, -, h3, -, -⟩, ho⟩ := hs
      exact ⟨⟨h1, fun e => absurd e ho, h3, LookKind.count_pos _, fun w hw => by cases hw⟩, ho⟩

/-! ### The bytes of a transaction -/

theorem State.takeCommand_open (hs : s.port.Open) (code : ConsoleCode) (args : List Byte) :
    (s.takeCommand code args).port.Open :=
  Port.Open.respond (open_kept.ownerTakes (s := s.dropWalk) ⟨hs.1.dropWalk, hs.2⟩ code args)

theorem State.port_receiveByte (hs : s.port.Ok) (b : Byte) : (s.receiveByte b).port.Ok := by
  unfold State.receiveByte
  split
  · exact hs
  · next hph =>
    have ho : s.port.Open := ⟨hs, by simp [hph]⟩
    unfold State.commandByte
    split
    · exact (ho.returning (some turnaroundByte)).1
    · split
      · exact (Port.Open.respond (r := s.takeContinue) (ho.walk hs.continueTarget)).1
      · split
        · exact (ho.goesOn (ph := .response turnaroundByte [Status.code .unknown] true) (by simp) _ trivial).1
        · next c _ =>
          split
          · exact (s.takeCommand_open ho c []).1
          · next hc =>
            exact (ho.goesOn (ph := .arguments c []) (by simp) _ (Nat.pos_of_ne_zero hc)).1
  · next code got hph =>
    have ho : s.port.Open := ⟨hs, by simp [hph]⟩
    unfold State.argumentByte
    split
    · next hlt =>
      exact (ho.goesOn (ph := .arguments code (got ++ [b])) (by simp) _ (by simpa [Phase.Fits] using hlt)).1
    · exact (s.takeCommand_open ho code _).1
  · next hph => exact (Port.Open.receive ⟨hs, by simp [hph]⟩ _).1
  · next hph =>
    have ho : s.port.Open := ⟨hs, by simp [hph]⟩
    exact (ho.returning (some turnaroundByte)).1

theorem State.port_receiveBytes (hs : s.port.Ok) (bytes : List Byte) : (s.receiveBytes bytes).port.Ok := by
  unfold State.receiveBytes
  induction bytes generalizing s with
  | nil => exact hs
  | cons b rest ih =>
    refine ih ?_
    rw [State.port_repace]
    exact s.port_receiveByte hs b

theorem State.port_takeCsFall (hs : s.port.Ok) : s.takeCsFall.port.Ok := by
  unfold State.takeCsFall
  split
  · exact hs
  · obtain ⟨-, -, -, h4, h5⟩ := hs
    exact ⟨fun e => (by cases e), fun e => (by cases e), trivial, h4, h5⟩

theorem State.port_takeCsRise (hs : s.port.Ok) : s.takeCsRise.port.Ok := by
  unfold State.takeCsRise
  split
  · obtain ⟨-, -, -, h4, -⟩ := hs
    exact ⟨fun _ => rfl, fun _ => ⟨rfl, rfl, rfl⟩, trivial, h4, fun w hw => by cases hw⟩
  · exact hs

/-! ### The port under the events -/

theorem State.Sound.port_takeResponseExpiry (hs : s.Sound) : s.takeResponseExpiry.port = s.port := by
  unfold State.takeResponseExpiry
  split
  · next p hp =>
    split
    · rw [(State.endPoll_kept ..).port]
      split
      · rfl
      · exact (State.Taken.miss (hs.dlc.open hp).1 (by rw [hp]; rfl) ..).port
    all_goals rfl
  · rfl

theorem State.Sound.port_takeFrame (hs : s.Sound) (bytes : List Byte) (rest : Nat) :
    (s.takeFrame bytes rest).port = s.port := by
  unfold State.takeFrame
  split
  · next p hp =>
    split
    · rw [(State.deliverWaiting_spec _).2.2.1, (State.endPoll_kept ..).port]
      split
      · rfl
      · exact (State.Taken.judgeAndTake (hs.dlc.open hp).1 (by rw [hp]; rfl) ..).port
    all_goals rfl
  · split <;> rfl

theorem State.Sound.port_takeFirstStartBit (hs : s.Sound) (elapsed : Nat) :
    (s.takeFirstStartBit elapsed).port = s.port := by
  unfold State.takeFirstStartBit
  split
  · split
    · split
      · rfl
      · exact hs.port_takeResponseExpiry
    all_goals rfl
  · rfl

theorem State.port_takeEstopAssertion (s : State) : s.takeEstopAssertion.port = s.port := by
  have hp : s.assertEstop.port = s.port := by
    unfold State.assertEstop
    rw [(State.endJog_kept ..).port]
    simp [State.cutPower]
  unfold State.takeEstopAssertion
  split
  · rfl
  · generalize s.assertEstop = t at hp ⊢
    dsimp only
    split
    · exact hp
    · rw [t.takeDelivery_spec.2.2.1]; exact hp

theorem State.port_takeStepExpiry {k : GroupId} (ht : s.takeStepExpiry k = some t) : t.port = s.port := by
  rcases State.takeStepExpiry_cases ht with rfl | ⟨-, g, -, rfl⟩ <;> rfl

theorem State.Sound.port_takeLandingExpiry (hs : s.Sound) (k : GroupId) : (s.takeLandingExpiry k).port = s.port := by
  rcases hs.rig.takeLandingExpiry_cases k with h | h
  · exact h.work.tables.port
  · exact h.work.tables.port.trans s.deliverEvents_spec.2.2.2.2.port

/-- A run's state with the port within its laws. -/
theorem sound_port_kept : KeptByEvents fun s => s.Sound ∧ s.port.Ok := by
  have same : ∀ {s t : State}, t.Sound → t.port = s.port → s.Sound ∧ s.port.Ok → t.Sound ∧ t.port.Ok :=
    fun hs e h => ⟨hs, e ▸ h.2⟩
  have hk := sound_kept
  refine {
    pending := fun s l hs => ⟨hk.pending s l hs.1, hs.2⟩
    repace := fun s hs => same hs.1.repace s.port_repace hs
    endJog := fun s cause hs => same (hs.1.endJog cause) (s.endJog_kept cause).port hs
    takeEstopAssertion := fun s hs => same hs.1.takeEstopAssertion s.port_takeEstopAssertion hs
    deliverWaiting := fun s hs => same hs.1.deliverWaiting s.deliverWaiting_spec.2.2.1 hs
    deliverEvents := fun s hs => same (s := s) hs.1.deliverEvents (s.deliverEvents_spec.2.2.2.2.port.trans rfl) hs
    releaseEstop := fun s hw hs => same (hs.1.releaseEstop hw) (by unfold State.releaseEstop; split <;> rfl) hs
    riseCue := fun s line hs => same (hs.1.riseCue line) ?riseCue hs
    fallCue := fun s line hs => same (hs.1.fallCue line) ?fallCue hs
    takeStepExpiry := fun s k hs t ht => same (hs.1.takeStepExpiry ht) (State.port_takeStepExpiry ht) hs
    takeHoldExpiry := fun s k hs => same (hk.takeHoldExpiry s k hs.1)
        (hs.1.rig.groups.holdExpiry_chain k).work.tables.port hs
    takeLandingExpiry := fun s k hs => same (hs.1.takeLandingExpiry k) (hs.1.port_takeLandingExpiry k) hs
    takeStopExpiry := fun s k hs => same (hk.takeStopExpiry s k hs.1)
        (hs.1.rig.groups.stopExpiry_chain k).work.tables.port hs
    takeResponseExpiry := fun s hs => same hs.1.takeResponseExpiry hs.1.port_takeResponseExpiry hs
    takeRoundStart := fun s hs => same hs.1.takeRoundStart ?roundStart hs
    pollNext := fun s he hs => same (hs.1.pollNext he) ?pollNext hs
    takeEndOfPoll := fun s hs => same hs.1.takeEndOfPoll ?endOfPoll hs
    takeHaltAll := fun s hs => same hs.1.takeHaltAll (by unfold State.takeHaltAll; split <;> rfl) hs
    takeFrame := fun s bytes rest hs => same (hs.1.takeFrame bytes rest) (hs.1.port_takeFrame bytes rest) hs
    takeFirstStartBit := fun s n hs => same (hs.1.takeFirstStartBit n) (hs.1.port_takeFirstStartBit n) hs
    count := fun s hs => ⟨hs.1.count, hs.2⟩
    afterReset := fun a b c d now n l => ⟨hk.afterReset a b c d now n l, (resetMeetsInvariant a b c d).port⟩ }
  case riseCue =>
    unfold State.riseCue
    split
    · rfl
    · exact (State.startAll_chain _ _).work.tables.port
  case fallCue =>
    rcases s.fallCue_cases line with e | h
    · rw [e]
    · exact h.work.tables.port
  case roundStart =>
    unfold State.takeRoundStart
    split
    · split
      · rfl
      · split <;> rfl
    · rfl
  case pollNext =>
    unfold State.pollNext
    split
    · split
      · rfl
      · split <;> rfl
    · rfl
  case endOfPoll =>
    unfold State.takeEndOfPoll
    split
    · split <;> rfl
    · rfl

end Sys2Proof.Machine

/-! ## The pace, and the invariant -/

namespace Sys2Proof.Machine

variable {s t : State}

/-! ### The pace (R146) -/

/-- No round is awaited at slow pace while the fast condition holds. -/
def State.Paced (s : State) : Prop := s.link.round = .between .slow → s.Quiet

theorem Group.Event.inactive {g g' : Group} (e : g.Event g')
    (h : g.state = .empty ∨ g.state = .idle ∨ g.state = .faulted) : g'.state = g.state := by
  cases e with
  | post c i value hs => exact (g.post_fields c i value).1
  | holdLost => rfl
  | fault c slot value hs => rcases hs with hs | hs <;> simp [hs] at h
  | stop _ _ _ hs | complete hs | estopped hs | start _ _ _ hs | arrive hs | settle hs | countRound hs | stopExpiry _ hs =>
    simp [hs] at h

/-- Where no group is active GENG sets none in motion, and moves no hoist. -/
theorem State.Quiet.geng (hs : s.Quiet) (h : s.Geng t) : t.Quiet := by
  obtain ⟨hgroups, hhoists⟩ := hs
  cases h with
  | write k g he _ =>
    refine ⟨fun j => ?_, hhoists⟩
    rw [State.group_withGroup]
    split
    · next e =>
      subst e
      rw [he.inactive (hgroups _)]
      exact hgroups _
    · exact hgroups j
  | stop k _ _ _ hk => simpa [hk] using hgroups k
  | start k hk => simpa [hk] using hgroups k
  | arrive k hk _ => simpa [hk] using hgroups k

theorem State.Paced.chain (hs : s.Paced) (h : s.GengChain t) : t.Paced := by
  induction h with
  | refl => exact hs
  | tail _ h ih =>
    intro hround
    rw [h.work.tables.link] at hround
    exact (ih hround).geng h

/-- The pace of another state with the same round, groups and hoists. -/
theorem State.Paced.same (hs : s.Paced) (hr : t.link.round = s.link.round) (hg : t.groups = s.groups)
    (hsl : t.slots = s.slots) : t.Paced := fun h => by
  obtain ⟨h1, h2⟩ := hs (hr ▸ h)
  exact ⟨fun k => by rw [State.group, hg]; exact h1 k, fun i => by rw [State.record, State.slot, hsl]; exact h2 i⟩

theorem State.decideRound_paced (s : State) : s.decideRound.Paced := by
  rw [State.decideRound_eq]
  split
  · intro h
    cases h
  · intro h
    have hf : s.fastCondition = false := by
      cases hf : s.fastCondition with
      | false => rfl
      | true =>
        rw [hf] at h
        cases h
    exact s.quiet_iff.2 hf

theorem State.completeIfDone_paced (hs : s.Paced) : s.completeIfDone.Paced := by
  unfold State.completeIfDone
  split
  · exact State.decideRound_paced _
  · exact hs

theorem State.completeIdleRound_paced (hs : s.Paced) : s.completeIdleRound.Paced := by
  unfold State.completeIdleRound
  split
  · exact State.completeIfDone_paced hs
  · exact hs

theorem State.Paced.oweHalt (hs : s.Paced) : (s.modLink Link.oweHalt).Paced := by
  refine hs.same ?_ rfl rfl
  show s.link.oweHalt.round = s.link.round
  unfold Link.oweHalt
  split <;> rfl

theorem State.Paced.estopLink (hs : s.Paced) : s.estopLink.Paced := by
  unfold State.estopLink
  split
  · exact hs
  · split
    · next p _ =>
      have ht : (State.modLink (s.modLink fun l => l.abortLine p) fun l => l.shutPoll p.slot).Paced :=
        hs.same (s.link.abortLine_fields p).1 rfl rfl
      exact (State.completeIfDone_paced ht).oweHalt
    · exact hs.oweHalt

theorem State.Paced.takeDelivery (hs : s.Paced) : s.takeDelivery.Paced := by
  have ht : (s.deliverEstop s.linkFirst).Paced := by
    unfold State.deliverEstop
    split
    · exact hs.estopLink.chain (State.estopGroups_chain _)
    · exact (hs.chain s.estopGroups_chain).estopLink
  exact ht.same rfl rfl rfl

theorem State.Paced.deliverWaiting (hs : s.Paced) : s.deliverWaiting.Paced := by
  unfold State.deliverWaiting
  split
  · have ht : State.Paced { s with safety := { s.safety with estopWaiting := false } } := hs.same rfl rfl rfl
    exact ht.takeDelivery
  · exact hs

theorem State.Paced.deliverEvents (hs : s.Paced) : s.deliverEvents.Paced := by
  unfold State.deliverEvents
  split
  · next e _ =>
    have ht : State.Paced { s with eventsWaiting := none } := hs.same rfl rfl rfl
    exact State.completeIdleRound_paced (ht.chain (State.takeEvents_chain _ e))
  · exact hs

theorem State.Paced.count (hs : s.Paced) : s.count.Paced := fun hr => by
  have e : s.count.link.round = s.link.round := s.link.tick_kept.2.1
  obtain ⟨h1, h2⟩ := hs (e ▸ hr)
  refine ⟨fun k => ?_, h2⟩
  have e : s.count.group k = (s.group k).tick := State.group_mapGroups s Group.tick k
  rw [e]
  exact h1 k

theorem State.Paced.tick (hs : s.Paced) : s.tick.Paced := by
  have ht : s.endMoment.Paced := hs.deliverWaiting.deliverEvents
  unfold State.tick
  generalize s.endMoment = t at ht ⊢
  dsimp only
  split
  · exact ht.count
  · exact ht.same rfl rfl rfl

/-- An event that makes the fast condition hold ends a wait at slow pace. -/
theorem State.repace_paced (s : State) : s.repace.Paced := by
  unfold State.repace
  split
  · next hr =>
    split
    · intro h
      cases h
    · next hf => exact fun _ => s.quiet_iff.2 (by simpa using hf)
  · next hr => exact fun h => absurd h hr

theorem complete_next {u : State} (h : complete u = .next t) : t.Paced := by
  cases h
  exact u.repace_paced

/-- Every command sets the pace as its last. -/
theorem exec_paced {c : Instr} (he : exec c s = .next t) : t.Paced := by
  cases c
  case porst estopLow cue0High cue1High csLow =>
    cases he
    exact fun h => by cases h
  case stepTimerExpiry group =>
    have he : execStepTimerExpiry group s = .next t := he
    unfold execStepTimerExpiry at he
    split at he
    · exact complete_next he
    · cases he
  all_goals exact complete_next he

theorem State.Paced.step (hs : s.Paced) (he : step s = .next t) : t.Paced := by
  unfold Machine.step at he
  split at he
  · cases he
    exact hs.tick
  · exact exec_paced he

/-! ### The port in a run -/

/-- Two properties that the owners keep. -/
theorem KeptByOwners.and {P Q : State → Prop} (a : KeptByOwners P) (b : KeptByOwners Q) :
    KeptByOwners fun s => P s ∧ Q s where
  takeLook s kind block index h := ⟨a.takeLook s kind block index h.1, b.takeLook s kind block index h.2⟩
  clearAttention s kind index h := ⟨a.clearAttention s kind index h.1, b.clearAttention s kind index h.2⟩
  admitSlot s n ad lo up tr h := ⟨a.admitSlot s n ad lo up tr h.1, b.admitSlot s n ad lo up tr h.2⟩
  amend s n lo up tr ov un sh jd h := ⟨a.amend s n lo up tr ov un sh jd h.1, b.amend s n lo up tr ov un sh jd h.2⟩
  retire s n h := ⟨a.retire s n h.1, b.retire s n h.2⟩
  assign s n k h := ⟨a.assign s n k h.1, b.assign s n k h.2⟩
  clearFlags s n h := ⟨a.clearFlags s n h.1, b.clearFlags s n h.2⟩
  setGroup s k le ga la ma st se ho sp ld h :=
    ⟨a.setGroup s k le ga la ma st se ho sp ld h.1, b.setGroup s k le ga la ma st se ho sp ld h.2⟩
  queueCue s k ta cr ac so af h := ⟨a.queueCue s k ta cr ac so af h.1, b.queueCue s k ta cr ac so af h.2⟩
  flush s k h := ⟨a.flush s k h.1, b.flush s k h.2⟩
  arm s k h := ⟨a.arm s k h.1, b.arm s k h.2⟩
  startMove s k h := ⟨a.startMove s k h.1, b.startMove s k h.2⟩
  holdJog s h := ⟨a.holdJog s h.1, b.holdJog s h.2⟩
  holdGroup s k h := ⟨a.holdGroup s k h.1, b.holdGroup s k h.2⟩
  haltGroup s k h := ⟨a.haltGroup s k h.1, b.haltGroup s k h.2⟩
  stageSpeed s k cr h := ⟨a.stageSpeed s k cr h.1, b.stageSpeed s k cr h.2⟩
  stageTarget s k ta h := ⟨a.stageTarget s k ta h.1, b.stageTarget s k ta h.2⟩
  ackFault s k h := ⟨a.ackFault s k h.1, b.ackFault s k h.2⟩
  takeJog s n di ds h := ⟨a.takeJog s n di ds h.1, b.takeJog s n di ds h.2⟩
  endJog s cause h := ⟨a.endJog s cause h.1, b.endJog s cause h.2⟩
  configureLink s ti th id h := ⟨a.configureLink s ti th id h.1, b.configureLink s ti th id h.2⟩
  takePermit s h := ⟨a.takePermit s h.1, b.takePermit s h.2⟩
  takeRestart s h := ⟨a.takeRestart s h.1, b.takeRestart s h.2⟩

/-- A console command's row, whose owner works in an open transaction. -/
theorem State.Sound.console (hs : s.Sound) (hp : s.port.Ok) (code : ConsoleCode) (args : List Byte)
    {owner : State → State × Answer}
    (ho : ∀ t : State, t.Sound ∧ t.port.Open → (owner t).1.Sound ∧ (owner t).1.port.Open) :
    (s.console code args owner).Sound ∧ (s.console code args owner).port.Ok := by
  unfold State.console
  split
  · next hc =>
    have hopen : s.port.phase ≠ .closed := by
      intro e
      rw [e] at hc
      rcases hc with hc | hc <;> cases hc
    obtain ⟨h1, h2⟩ := ho s.dropWalk ⟨sound_kept.port s _ hs, hp.dropWalk, hopen⟩
    exact ⟨sound_kept.respond h1, (Port.Open.respond h2).1⟩
  · exact ⟨sound_kept.receiveBytes hs _, State.port_receiveBytes hp _⟩

theorem State.Sound.step (hs : s.Sound) (hp : s.port.Ok) (he : step s = .next t) : t.Sound ∧ t.port.Ok := by
  unfold Machine.step at he
  split at he
  · cases he
    exact sound_port_kept.tick ⟨hs, hp⟩
  · next c rest _ =>
    have h1 : State.Sound { s with pending := rest } := sound_kept.pending s rest hs
    have hp : State.port { s with pending := rest } |>.Ok := hp
    generalize { s with pending := rest } = u at h1 hp he
    exact sound_port_kept.exec ⟨h1, hp⟩ (sound_kept.toKeptByOwners.and open_kept)
      (fun code args _ ho => h1.console hp code args ho)
      (fun b => ⟨sound_kept.receiveByte h1 b, State.port_receiveByte hp b⟩)
      ⟨sound_kept.takeCsFall h1, State.port_takeCsFall hp⟩ ⟨sound_kept.takeCsRise h1, State.port_takeCsRise hp⟩ c he

/-! ### The invariant -/

theorem State.Inv.paced (hs : s.Inv) : s.Paced := fun h => by
  have hr : s.RoundOk := hs.link.2.2.1
  unfold State.RoundOk at hr
  rw [h] at hr
  obtain ⟨-, -, -, hq⟩ := hr
  exact s.quiet_iff.2 (hq rfl)

theorem State.Paced.roundOk (hs : s.Paced) (hr : s.RoundsOk) : s.RoundOk := by
  unfold State.RoundsOk at hr
  unfold State.RoundOk
  unfold State.Paced at hs
  cases hround : s.link.round <;> rw [hround] at hr hs
  case between pace =>
    obtain ⟨h1, h2, h3⟩ := hr
    exact ⟨h1, h2, h3, fun e => s.quiet_iff.1 (hs (by rw [e]))⟩
  all_goals exact hr

/-- The laws together are the invariant. -/
theorem State.Sound.inv (hs : s.Sound) (hm : s.NodeMapOk) (hl : s.PollListOk) (hp : s.Paced) (ho : s.port.Ok) : s.Inv where
  records := hs.rig.records
  nodeMap := hm
  pollList := hl
  members := hs.rig.members
  groups := hs.rig.groups
  motion := ⟨fun k => hs.rig.memberStates k trivial, hs.rig.grouped⟩
  power := ⟨hs.rig.estop, fun h => ⟨hs.rig.powerless h, hs.power h⟩⟩
  waiting := ⟨hs.waits, hs.dlc.events⟩
  jog := hs.rig.jog
  link := ⟨hs.dlc.settings, hs.dlc.line, hp.roundOk hs.dlc.rounds, hs.dlc.poll⟩
  port := ho

/-- Settles O5: the records, groups and members, the link, what waits and the power keep each other through every operation
(`sound_kept`); with them the port, the address map and the poll list, and the pace that each command sets as its last. -/
theorem stepKeepsInvariant : Obligations.StepKeepsInvariant := fun _ _ hs he => by
  obtain ⟨hsound, hport⟩ := hs.sound.step hs.port he
  exact hsound.inv (nodeMap_kept.step hs.nodeMap he) (pollList_kept.step hs.pollList he) (hs.paced.step he) hport

end Sys2Proof.Machine

/-! ## The console's commands on one group -/

namespace Sys2Proof.Machine

/-! ### What the commands read and write -/

/-- The states that are not at rest are the active ones (R32, R37, R39). -/
theorem GroupState.atRest_active {st : GroupState}
    (h : st = .armed ∨ st = .moving ∨ st = .stopping ∨ st = .settling) : st.atRest = false := by
  rcases h with rfl | rfl | rfl | rfl <;> rfl

/-- A value in its range is not clamped. -/
theorem intoRange_eq_iff {low high : Nat} (h : low ≤ high) (v : Nat) : intoRange low high v = v ↔ low ≤ v ∧ v ≤ high := by
  unfold intoRange
  omega

/-- The status of an accepted command that adjusts its operands (R167). -/
theorem statusOf_eq {b : Bool} {p : Prop} [Decidable p] (h : b = true ↔ ¬ p) :
    statusOf b = if p then .ok else .clamped := by
  by_cases hp : p
  · have : b = false := by simpa [hp] using h
    simp [statusOf, hp, this]
  · simp [statusOf, hp, h.2 hp]

/-- The smallest rated speed among the members, as GENG reads it (R41, R48). -/
theorem State.minRatedSpeed_eq {s : State} {k : GroupId} {m : Nat} (h : s.SlowestMember k m) :
    s.minRatedSpeed k = some m := by
  obtain ⟨hle, i, hi, r, hr, hv⟩ := h
  rw [State.minRatedSpeed, List.min?_eq_some_iff]
  simp only [State.memberRecords, List.mem_filterMap]
  refine ⟨⟨r, ⟨i, hi, hr⟩, hv⟩, ?_⟩
  rintro v ⟨r', ⟨j, hj, hr'⟩, hv'⟩
  exact hle j hj r' hr' v hv'

/-- A member is ready to move (R40). -/
theorem Hoist.readyToMove_iff (h : Hoist) : h.readyToMove = true ↔
    h.state = .ready ∧ h.height.isSome = true ∧ ∃ f ∈ h.nodeFlags, f.getLsbD 0 = true := by
  unfold Hoist.readyToMove driveReady
  cases h.nodeFlags <;> simp [and_assoc]

/-- A member's own target lies within its limits (R41). -/
theorem Hoist.targetWithin_iff (h : Hoist) (target : Nat) : h.targetWithin target = true ↔
    (h.lower : Int) ≤ target + h.trim ∧ (target : Int) + h.trim ≤ h.upper := by
  simp [Hoist.targetWithin]

/-- A target ahead of the reference, by the direction of travel (R49). -/
theorem strictlyAhead_iff (dir : Travel) (x reference : Int) : strictlyAhead dir x reference = true ↔
    match dir with
      | .up => reference < x
      | .down => x < reference := by
  cases dir <;> simp [strictlyAhead]

/-! ### ASSIGN (R32, R33) -/

theorem assignGroupOf_none {b : Byte} (h : 9 ≤ b.toNat) : assignGroupOf b = none := by
  have : b ≠ 8 := fun e => by subst e; simp at h
  rw [assignGroupOf, if_neg this, groupOf_none (show 8 ≤ b.toNat by omega), Option.map_none]

theorem assignGroupOf_leave {b : Byte} (h : b.toNat = 8) : assignGroupOf b = some none := by
  have : b = 8 := BitVec.eq_of_toNat_eq h
  simp [assignGroupOf, this]

theorem assignGroupOf_eq {b : Byte} {k : GroupId} (h : b.toNat = k.val) : assignGroupOf b = some (some k) := by
  have : b ≠ 8 := fun e => by
    subst e
    have := k.isLt
    simp at h
    omega
  rw [assignGroupOf, if_neg this, groupOf_eq h, Option.map_some]

/-- A slot enters a member set; an empty group is then idle (R33). -/
theorem Group.addMember_eq (g : Group) (i : Slot) : g.addMember i = { g with
    members := insertSlot i g.members
    state := if g.state = .empty then .idle else g.state } := by
  unfold Group.addMember
  cases h : g.state <;> simp

/-- A record goes from its group, if it has one, to another (R33). -/
theorem State.moveGroup_eq {s : State} {i : Slot} {h : Hoist} {k : GroupId} (hr : s.record i = some h)
    (hk : h.group ≠ some k) : (s.leaveGroup i).joinGroup i k =
      ((s.withoutMember i h).withRecord i { h with group := some k }).withGroup k ((s.group k).addMember i) := by
  have hg : (s.withoutMember i h).group k = s.group k := by
    unfold State.withoutMember
    cases hj : h.group with
    | none => rfl
    | some j => exact (s.group_withGroup ..).trans (if_neg fun e => hk (hj.trans (congrArg some e)))
  rw [State.joinGroup, State.leaveGroup_eq hr, State.modRecord_eq (State.record_withRecord_self ..),
    State.withRecord_withRecord, State.modGroup_eq, State.group_withRecord, hg]

section Assign
variable {s : State} {slot group : Byte} {i : Slot} {h : Hoist}

theorem State.assign_noTarget (hn : 32 ≤ slot.toNat ∨ 9 ≤ group.toNat) :
    s.assign slot group = (s, .plain .range) := by
  rcases hn with hn | hn
  · simp [State.assign, slotOf_none hn]
  · unfold State.assign
    rw [assignGroupOf_none hn]
    cases slotOf slot <;> rfl

/-- The target of an ASSIGN with a group argument 0 to 8 is in range. -/
theorem assignGroupOf_some (hg : group.toNat ≤ 8) : ∃ target, assignGroupOf group = some target := by
  rcases Nat.lt_or_eq_of_le hg with hlt | he
  · exact ⟨_, assignGroupOf_eq (k := ⟨group.toNat, hlt⟩) rfl⟩
  · exact ⟨_, assignGroupOf_leave he⟩

theorem State.assign_vacant (hi : slot.toNat = i.val) (hg : group.toNat ≤ 8) (hr : s.record i = none) :
    s.assign slot group = (s, .plain .empty) := by
  obtain ⟨target, ht⟩ := assignGroupOf_some hg
  simp [State.assign, slotOf_eq hi, ht, hr]

/-- ASSIGN of a record in another state, or in a group that is not at rest (R32). -/
theorem State.assign_bound (hi : slot.toNat = i.val) (hg : group.toNat ≤ 8) (hr : s.record i = some h)
    (hn : ¬ ((h.state = .ready ∨ h.state = .lost) ∧ s.groupAllows h GroupState.atRest = true)) :
    s.assign slot group = (s, .plain .state) := by
  obtain ⟨target, ht⟩ := assignGroupOf_some hg
  simp only [State.assign, slotOf_eq hi, ht, hr]
  by_cases hs : h.state = .ready ∨ h.state = .lost
  · have ha : s.groupAllows h GroupState.atRest = false := by simpa using fun e => hn ⟨hs, e⟩
    rw [if_neg (by tauto), ha, Bool.not_false, if_pos rfl]
  · rw [if_pos (by tauto)]

section Free
variable (hi : slot.toNat = i.val) (hr : s.record i = some h) (hs : h.state = .ready ∨ h.state = .lost)
  (ha : s.groupAllows h GroupState.atRest = true)
include hi hr hs ha

/-- ASSIGN to no group, of a record that may leave its own (R32, R33). -/
theorem State.assign_leave (hg : group.toNat = 8) : s.assign slot group = (s.leaveGroup i, .plain .ok) := by
  have h1 : ¬ (h.state ≠ .ready ∧ h.state ≠ .lost) := by tauto
  simp only [State.assign, slotOf_eq hi, assignGroupOf_leave hg, hr, if_neg h1, ha, Bool.not_true, Bool.false_eq_true,
    if_false]

/-- ASSIGN to a group, of a record that may leave its own: the target decides (R32, R33). -/
theorem State.assign_join {k : GroupId} (hg : group.toNat = k.val) : s.assign slot group =
    if (s.group k).state.atRest = false then (s, .plain .state)
    else if h.group = some k then (s, .plain .ok)
    else ((s.leaveGroup i).joinGroup i k, .plain .ok) := by
  have h1 : ¬ (h.state ≠ .ready ∧ h.state ≠ .lost) := by tauto
  simp only [State.assign, slotOf_eq hi, assignGroupOf_eq hg, hr, if_neg h1, ha, Bool.not_true, Bool.false_eq_true,
    if_false, Bool.not_eq_true']

end Free

end Assign

theorem State.withoutMember_dropWalk (s : State) (i : Slot) (h : Hoist) :
    s.dropWalk.withoutMember i h = (s.withoutMember i h).dropWalk := by
  unfold State.withoutMember
  cases h.group <;> rfl

/-- Settles O23: the refusals in the order of R32's checks, then the leaving and joining of R33. -/
theorem assignMovesMembership : Obligations.AssignMovesMembership := by
  intro s slot group hp
  refine ⟨fun hn => complete_console_refused hp (State.assign_noTarget hn), fun i hi hg =>
    ⟨fun hr => complete_console_refused hp (State.assign_vacant hi hg hr), fun h hr => ?_⟩⟩
  have allows : s.dropWalk.groupAllows h GroupState.atRest = true ↔ ∀ k ∈ h.group,
      (s.group k).state = .empty ∨ (s.group k).state = .idle ∨ (s.group k).state = .faulted := by
    simp only [State.groupAllows_iff, GroupState.atRest_iff, State.group_dropWalk]
  refine ⟨fun hn => complete_console_refused hp (State.assign_bound hi hg hr ?_), fun hs ha => ?_⟩
  · rwa [allows]
  have join {k : GroupId} (hk : group.toNat = k.val) := State.assign_join (s := s.dropWalk) hi hr hs (allows.2 ha) hk
  refine ⟨fun h8 => complete_console hp ?_, fun k hk => ⟨fun hn => complete_console_refused hp ?_, fun hk' he =>
    complete_console_refused hp ?_, fun hk' hne => complete_console hp ?_⟩⟩
  · rw [State.assign_leave (s := s.dropWalk) hi hr hs (allows.2 ha) h8, State.leaveGroup_eq (s := s.dropWalk) hr,
      State.withoutMember_dropWalk]
    rfl
  · have : (s.group k).state.atRest = false := by
      rw [← Bool.not_eq_true, GroupState.atRest_iff]
      exact hn
    rw [join hk, State.group_dropWalk, if_pos this]
  · have : (s.group k).state.atRest = true := (GroupState.atRest_iff _).2 hk'
    rw [join hk, State.group_dropWalk, this, if_neg (by simp), if_pos he]
  · have : (s.group k).state.atRest = true := (GroupState.atRest_iff _).2 hk'
    rw [join hk, State.group_dropWalk, this, if_neg (by simp), if_neg hne, State.moveGroup_eq (s := s.dropWalk) hr hne,
      State.withoutMember_dropWalk, Group.addMember_eq]
    rfl

/-! ### SETGROUP (R38, R39) -/

/-- The step period is as it was given exactly where it is in its range and a multiple of 10. -/
theorem period_eq_iff (v : Nat) :
    intoRange 10 100 v - intoRange 10 100 v % 10 = v ↔ 10 ≤ v ∧ v ≤ 100 ∧ v % 10 = 0 := by
  unfold intoRange
  omega

/-- The stop mask is as it was given exactly where no other bit is set (R39). -/
theorem code_stopMaskOf_eq_iff (b : Byte) : (stopMaskOf b).code = b.toNat ↔ b.toNat < 8 := by
  have low : ∀ b : BitVec 8, (yesNo (b.getLsbD 0) + 2 * yesNo (b.getLsbD 1) + 4 * yesNo (b.getLsbD 2)) = b.toNat % 8 := by
    decide
  rw [StopMask.code, stopMaskOf, low]
  omega

/-- The settings that SETGROUP writes, each put into its range (R38, R39). -/
theorem settingsOf_eq (level gain landing mask stepPeriod settle : Byte) (holdMs stopMs landMs : BitVec 16) :
    settingsOf level gain landing mask stepPeriod settle holdMs stopMs landMs =
      { levelTol := intoRange 1 200 level.toNat
        gain := gain.toNat
        landingTol := intoRange 1 20 landing.toNat
        stopMask := ⟨mask.getLsbD 0, mask.getLsbD 1, mask.getLsbD 2⟩
        stepPeriod := intoRange 10 100 stepPeriod.toNat - intoRange 10 100 stepPeriod.toNat % 10
        settleRounds := settle.toNat
        holdTimeout := intoRange 100 1000 holdMs.toNat
        stopTimeout := intoRange 500 5000 stopMs.toNat
        landingTimeout := intoRange 1000 30000 landMs.toNat } := by
  simp only [settingsOf, stopMaskOf, clampTens_eq (show 10 ≤ 100 by omega), clampTo_eq (show 1 ≤ 200 by omega),
    clampTo_eq (show 1 ≤ 20 by omega), clampTo_eq (show 100 ≤ 1000 by omega), clampTo_eq (show 500 ≤ 5000 by omega),
    clampTo_eq (show 1000 ≤ 30000 by omega)]

/-- Settles O25: the group at rest decides, the settings are those of `settingsOf`, and STS_CLAMPED is their difference
from the operands. -/
theorem setgroupWritesSettings : Obligations.SetgroupWritesSettings := by
  intro s group level gain landing mask stepPeriod settle holdMs stopMs landMs hp
  refine ⟨fun hg => complete_console_refused hp ?_, fun k hk => ⟨fun ha => complete_console_refused hp ?_, fun hr =>
    complete_console hp ?_⟩⟩
  · simp [State.setGroup, groupOf_none hg]
  · simp [State.setGroup, groupOf_eq hk, GroupState.atRest_active ha]
  · have clamped : statusOf _ = _ := statusOf_eq
      (b := let t := settingsOf level gain landing mask stepPeriod settle holdMs stopMs landMs
        t.levelTol != level.toNat || t.landingTol != landing.toNat || t.stopMask.code != mask.toNat ||
          t.stepPeriod != stepPeriod.toNat || t.holdTimeout != holdMs.toNat || t.stopTimeout != stopMs.toNat ||
          t.landingTimeout != landMs.toNat)
      (p := 1 ≤ level.toNat ∧ level.toNat ≤ 200 ∧ 1 ≤ landing.toNat ∧ landing.toNat ≤ 20 ∧ mask.toNat < 8 ∧
        10 ≤ stepPeriod.toNat ∧ stepPeriod.toNat ≤ 100 ∧ stepPeriod.toNat % 10 = 0 ∧ 100 ≤ holdMs.toNat ∧
        holdMs.toNat ≤ 1000 ∧ 500 ≤ stopMs.toNat ∧ stopMs.toNat ≤ 5000 ∧ 1000 ≤ landMs.toNat ∧ landMs.toNat ≤ 30000) (by
        have hm : StopMask.code ⟨mask.getLsbD 0, mask.getLsbD 1, mask.getLsbD 2⟩ = mask.toNat ↔ mask.toNat < 8 :=
          code_stopMaskOf_eq_iff mask
        simp only [settingsOf_eq, Bool.or_eq_true, bne_iff_ne, ne_eq, period_eq_iff, hm,
          intoRange_eq_iff (show 1 ≤ 200 by omega), intoRange_eq_iff (show 1 ≤ 20 by omega),
          intoRange_eq_iff (show 100 ≤ 1000 by omega), intoRange_eq_iff (show 500 ≤ 5000 by omega),
          intoRange_eq_iff (show 1000 ≤ 30000 by omega)]
        omega)
    rw [← clamped, ← settingsOf_eq]
    simp only [State.setGroup, groupOf_eq hk, State.group_dropWalk, (GroupState.atRest_iff _).2 hr, if_true]
    rfl

/-! ### QUEUE and FLUSH (R35 to R37) -/

theorem sourceOf_after {k j : GroupId} {after : Byte} (h : after.toNat = j.val) :
    sourceOf k 3 after = if j = k then none else some (.after j) := by
  simp [sourceOf, groupOf_eq h]

/-- The start sources that QUEUE refuses: an unknown code, an after-group out of range, and the group's own (R36). -/
theorem sourceOf_none {k : GroupId} {source after : Byte}
    (h : 4 ≤ source.toNat ∨ source = 3 ∧ (8 ≤ after.toNat ∨ after.toNat = k.val)) : sourceOf k source after = none := by
  rcases h with h | ⟨rfl, h | h⟩
  · have ne : ∀ b : Byte, b.toNat < 4 → source ≠ b := fun b hb e => by subst e; omega
    rw [sourceOf, if_neg (ne 0 (by decide)), if_neg (ne 1 (by decide)), if_neg (ne 2 (by decide)),
      if_neg (ne 3 (by decide))]
  · simp [sourceOf, groupOf_none h]
  · rw [sourceOf_after h, if_pos rfl]

/-- The start sources that QUEUE accepts (R36). -/
theorem sourceOf_some {k : GroupId} {source after : Byte} {src : StartSource}
    (h : source = 0 ∧ src = .console ∨ source = 1 ∧ src = .cue0 ∨ source = 2 ∧ src = .cue1 ∨
      source = 3 ∧ ∃ j : GroupId, after.toNat = j.val ∧ j ≠ k ∧ src = .after j) :
    sourceOf k source after = some src := by
  rcases h with ⟨rfl, rfl⟩ | ⟨rfl, rfl⟩ | ⟨rfl, rfl⟩ | ⟨rfl, j, hj, hne, rfl⟩
  · rfl
  · rfl
  · rfl
  · rw [sourceOf_after hj, if_neg hne]

/-- QUEUE of a target and a source in range: the length of the queue decides (R36). -/
theorem State.queueCue_placed {s : State} {group : Byte} {k : GroupId} {target cruise accel : BitVec 16} {source after : Byte}
    {src : StartSource} (hk : group.toNat = k.val) (ht : target.toNat ≤ 50000)
    (hs : sourceOf k source after = some src) :
    s.queueCue group target cruise accel source after =
      if 4 ≤ (s.group k).queue.length then (s, .plain .full)
      else (s.withGroup k { s.group k with
          queue := (s.group k).queue ++
            [⟨target.toNat, intoRange 1 300 cruise.toNat, intoRange 10 1000 accel.toNat, src⟩] },
        ⟨if 1 ≤ cruise.toNat ∧ cruise.toNat ≤ 300 ∧ 10 ≤ accel.toNat ∧ accel.toNat ≤ 1000 then .ok else .clamped,
          be 1 (s.group k).queue.length⟩) := by
  have clamped : statusOf (intoRange 1 300 cruise.toNat != cruise.toNat || intoRange 10 1000 accel.toNat != accel.toNat) =
      if 1 ≤ cruise.toNat ∧ cruise.toNat ≤ 300 ∧ 10 ≤ accel.toNat ∧ accel.toNat ≤ 1000 then .ok else .clamped :=
    statusOf_eq (by
      simp only [Bool.or_eq_true, bne_iff_ne, ne_eq, intoRange_eq_iff (show 1 ≤ 300 by omega),
        intoRange_eq_iff (show 10 ≤ 1000 by omega)]
      omega)
  simp only [State.queueCue, groupOf_eq hk, Config.heightMax, Config.queueDepth, if_neg (Nat.not_lt.2 ht), gt_iff_lt,
    ge_iff_le, hs, clampTo_eq (show 1 ≤ 300 by omega), clampTo_eq (show 10 ≤ 1000 by omega), clamped, State.modGroup_eq]

/-- Settles O26: the checks in R36's order, then the cue at the tail. -/
theorem queueAppendsCue : Obligations.QueueAppendsCue := by
  intro s group target cruise accel source after hp
  refine ⟨fun hg => complete_console_refused hp ?_, fun k hk => ⟨fun hn => complete_console_refused hp ?_,
    fun src ht hs => ⟨fun hl => complete_console_refused hp ?_, fun hl => complete_console hp ?_⟩⟩⟩
  · simp [State.queueCue, groupOf_none hg]
  · by_cases ht : 50000 < target.toNat
    · simp only [State.queueCue, groupOf_eq hk, Config.heightMax, gt_iff_lt, if_pos ht]
    · simp only [State.queueCue, groupOf_eq hk, sourceOf_none (hn.resolve_left ht), ite_self]
  · rw [State.queueCue_placed (s := s.dropWalk) hk ht (sourceOf_some hs)]
    exact if_pos hl
  · rw [State.queueCue_placed (s := s.dropWalk) hk ht (sourceOf_some hs)]
    refine (if_neg (Nat.not_le.2 hl)).trans ?_
    simp [be]
    rfl

/-- Settles O27: the group at rest decides. -/
theorem flushEmptiesQueue : Obligations.FlushEmptiesQueue := by
  intro s group hp
  refine ⟨fun hg => complete_console_refused hp ?_, fun k hk => ⟨fun ha => complete_console_refused hp ?_, fun hr =>
    complete_console hp ?_⟩⟩
  · simp [State.flush, groupOf_none hg]
  · simp [State.flush, groupOf_eq hk, GroupState.atRest_active ha]
  · simp only [State.flush, groupOf_eq hk, State.group_dropWalk, (GroupState.atRest_iff _).2 hr, if_true]
    rfl

/-! ### GO and HALT (R45, R47) -/

/-- Settles O30: an armed group whose head cue names the console is started by `State.startMove`. -/
theorem goStartsArmedGroup : Obligations.GoStartsArmedGroup := by
  intro s group hp
  refine ⟨fun hg => complete_console_refused hp ?_, fun k hk => ⟨fun hn => complete_console_refused hp ?_,
    fun cue rest hs hq hc => complete_console hp ?_⟩⟩
  · simp [State.go, groupOf_none hg]
  · have : ¬ (s.group k).awaits .console = true := by
      rw [Group.awaits_iff, Option.map_eq_some_iff]
      rintro ⟨hs, cue, hcue, hc⟩
      rcases hn with h | h
      · exact h hs
      · exact h cue hcue hc
    rw [State.go, groupOf_eq hk]
    exact if_neg this
  · have : (s.group k).awaits .console = true := by simp [Group.awaits_iff, hs, hq, hc]
    simp only [State.go, groupOf_eq hk, State.group_dropWalk, if_pos this, State.startMove_dropWalk]
    rfl

/-- HALT of a group argument in range is the group's halt (R47). -/
theorem State.takeHalt_group {s : State} {group : Byte} {k : GroupId} (hk : group.toNat = k.val) :
    s.takeHalt group = (s.haltGroup k, .plain .ok) := by
  have : group ≠ 8 := fun e => by
    subst e
    have := k.isLt
    simp at hk
    omega
  rw [State.takeHalt, if_neg this, groupOf_eq hk]

/-- Settles O34: the group's state decides in `State.haltGroup`. -/
theorem haltByGroupState : Obligations.HaltByGroupState := by
  intro s group hp
  refine ⟨fun hg => complete_console_refused hp ?_, fun k hk => ⟨fun hs => complete_console hp ?_,
    fun hs => complete_console hp ?_, fun h1 h2 => complete_console hp ?_⟩⟩
  · have : group ≠ 8 := fun e => by subst e; simp at hg
    rw [State.takeHalt, if_neg this, groupOf_none (by omega)]
  · rw [State.takeHalt_group hk, State.haltGroup, State.group_dropWalk, hs]
    rfl
  · rw [State.takeHalt_group hk, State.haltGroup, State.group_dropWalk, hs]
    simp only [State.enterStopping_dropWalk]
    rfl
  · rw [State.takeHalt_group hk, State.haltGroup, State.group_dropWalk]
    cases hs : (s.group k).state <;> first | rfl | contradiction

/-! ### STAGESPD and STAGETGT (R48, R49) -/

/-- Settles O36: a moving group stages the cruise, clamped and then capped at its slowest member. -/
theorem stagespdStagesCappedSpeed : Obligations.StagespdStagesCappedSpeed := by
  intro s group cruise hp
  refine ⟨fun hg => complete_console_refused hp ?_, fun k hk => ⟨fun hn => complete_console_refused hp ?_,
    fun slowest hs hm => complete_console hp ?_⟩⟩
  · simp [State.stageSpeed, groupOf_none hg]
  · simp [State.stageSpeed, groupOf_eq hk, hn]
  · have hm : s.dropWalk.minRatedSpeed k = some slowest := State.minRatedSpeed_eq (s := s.dropWalk) hm
    have clamped : statusOf (min (intoRange 1 300 cruise.toNat) slowest != cruise.toNat) =
        if min (intoRange 1 300 cruise.toNat) slowest = cruise.toNat then .ok else .clamped := statusOf_eq (by simp)
    simp only [State.stageSpeed, groupOf_eq hk, State.group_dropWalk, if_pos hs, hm, cappedSpeed,
      clampTo_eq (show 1 ≤ 300 by omega), clamped]
    rfl

/-- Every member's own target lies within its limits (R41, R49). -/
theorem State.everyMember_within (s : State) (k : GroupId) (target : Nat) :
    s.everyMember k (fun h => h.targetWithin target) = true ↔ s.MembersAll k fun h =>
      (h.lower : Int) ≤ target + h.trim ∧ (target : Int) + h.trim ≤ h.upper := by
  simp only [State.everyMember_iff, Hoist.targetWithin_iff]

/-- STAGETGT of a moving group that has not arrived: the three checks decide (R49). -/
theorem State.stageTarget_moving {s : State} {group : Byte} {k : GroupId} {target : BitVec 16} {dir : Travel}
    {reference : Int} (hk : group.toNat = k.val) (hs : (s.group k).state = .moving) (ha : (s.group k).arrived = false)
    (hd : (s.group k).direction = some dir) (hr : (s.group k).reference = some reference) :
    s.stageTarget group target =
      if 50000 < target.toNat then (s, .plain .range)
      else if s.everyMember k (fun h => h.targetWithin target.toNat) = false then (s, .plain .limit)
      else if strictlyAhead dir ((target.toNat : Int) * 1000) reference = false then (s, .plain .reverse)
      else (s.withGroup k { s.group k with stagedTarget := some target.toNat }, .plain .ok) := by
  simp only [State.stageTarget, groupOf_eq hk, hs, ha, hd, hr, Config.heightMax, gt_iff_lt, Bool.not_eq_true',
    State.modGroup_eq]

/-- Settles O37: the group's state, then the three checks in R49's order. -/
theorem stagetgtStagesTargetAhead : Obligations.StagetgtStagesTargetAhead := by
  intro s group target hp
  refine ⟨fun hg => complete_console_refused hp ?_, fun k hk => ⟨fun hn => complete_console_refused hp ?_,
    fun dir reference hs ha hd hr => ?_⟩⟩
  · simp [State.stageTarget, groupOf_none hg]
  · simp only [State.stageTarget, groupOf_eq hk, State.group_dropWalk]
    split
    · next hs ha _ _ =>
      rcases hn with h | h
      · exact absurd hs h
      · rw [h] at ha; cases ha
    · rfl
  · have run := State.stageTarget_moving (s := s.dropWalk) (target := target) hk hs ha hd hr
    have within := s.dropWalk.everyMember_within k target.toNat
    have ahead := strictlyAhead_iff dir ((target.toNat : Int) * 1000) reference
    refine ⟨fun ht => complete_console_refused hp ?_, fun ht hw => complete_console_refused hp ?_,
      fun ht hw hn => complete_console_refused hp ?_, fun ht hw hh => complete_console hp ?_⟩
    · rw [run, if_pos ht]
    · rw [run, if_neg (Nat.not_lt.2 ht), if_pos (by rw [← Bool.not_eq_true, within]; exact hw)]
    · rw [run, if_neg (Nat.not_lt.2 ht), within.2 hw, if_neg (by simp),
        if_pos (by rw [← Bool.not_eq_true, ahead]; exact hn)]
    · rw [run, if_neg (Nat.not_lt.2 ht), within.2 hw, if_neg (by simp), ahead.2 hh, if_neg (by simp)]
      rfl

/-! ### ARM (R40 to R42) -/

section Arm
variable {s : State} {group : Byte} {k : GroupId} {cue : Cue} {rest : List Cue} (hk : group.toNat = k.val)
  (hs : (s.group k).state = .idle) (hq : (s.group k).queue = cue :: rest)
include hk hs hq

/-- ARM of an idle group with a head cue and power: the pending fault comes first (R40, R42). -/
theorem State.arm_pending (hp : s.mainsEn = true) {p : PendingFault} (hpf : (s.group k).pendingFault = some p) :
    s.arm group = (s.withGroup k ((s.group k).convert p), .plain .pending) := by
  simp [State.arm, groupOf_eq hk, hs, Group.head, hq, hp, hpf, State.modGroup_eq]

/-- ARM of an idle group with a head cue, power and no pending fault: the members decide (R41). -/
theorem State.arm_checked (hp : s.mainsEn = true) (hpf : (s.group k).pendingFault = none) :
    s.arm group =
      if s.everyMember k Hoist.readyToMove = false then (s, .plain .notReady)
      else if s.everyMember k (fun h => h.targetWithin cue.target) = false then (s, .plain .limit)
      else if ∃ n ∈ s.normalHeights k,
        (s.group k).settings.levelTol * 1000 < (n - average (s.normalHeights k)).natAbs then (s, .plain .unlevel)
      else if ((cue.target : Int) * 1000 - average (s.normalHeights k)).natAbs ≤ (s.group k).settings.landingTol * 1000 then
        (s, .plain .noMove)
      else (s.withGroup k ((s.group k).arm cue (average (s.normalHeights k)) (s.minRatedSpeed k)), .plain .ok) := by
  simp only [State.arm, groupOf_eq hk, hs, Group.head, hq, hp, hpf, State.modGroup_eq, List.head?_cons, ne_eq,
    not_true_eq_false, if_false, Bool.not_true, Bool.false_eq_true, Bool.not_eq_true', List.any_eq_true, decide_eq_true_eq,
    gt_iff_lt]

end Arm

/-- Every member is ready to move (R40). -/
theorem State.everyMember_ready (s : State) (k : GroupId) : s.everyMember k Hoist.readyToMove = true ↔
    s.MembersAll k fun h => h.state = .ready ∧ h.height.isSome = true ∧ ∃ f ∈ h.nodeFlags, f.getLsbD 0 = true := by
  simp only [State.everyMember_iff, Hoist.readyToMove_iff]

/-- Settles O29: the checks of R40 and R41 in their order; the pending fault is converted by `Group.convert` (R42). -/
theorem armRefusesInOrder : Obligations.ArmRefusesInOrder := by
  intro s group hp
  refine ⟨fun hg => complete_console_refused hp ?_, fun k hk => ⟨fun hn => complete_console_refused hp ?_,
    fun hs hq => complete_console_refused hp ?_, fun cue rest hs hq => ⟨fun hm => complete_console_refused hp ?_,
      fun hm p hpf => complete_console hp ?_, fun hm hpf => ?_⟩⟩⟩
  · simp [State.arm, groupOf_none hg]
  · simp [State.arm, groupOf_eq hk, hn]
  · simp [State.arm, groupOf_eq hk, hs, Group.head, hq]
  · have : s.dropWalk.mainsEn = false := hm
    simp [State.arm, groupOf_eq hk, hs, Group.head, hq, this]
  · rw [State.arm_pending (s := s.dropWalk) hk hs hq hm hpf]
    rfl
  · have run := State.arm_checked (s := s.dropWalk) hk hs hq hm hpf
    have ready := s.dropWalk.everyMember_ready k
    have within := s.dropWalk.everyMember_within k cue.target
    refine ⟨fun hr => complete_console_refused hp ?_, fun hr hw => complete_console_refused hp ?_,
      fun hr hw hf => complete_console_refused hp ?_, fun hr hw hf ht => complete_console_refused hp ?_⟩
    · rw [run, if_pos (by rw [← Bool.not_eq_true, ready]; exact hr)]
    · rw [run, ready.2 hr, if_neg (by simp), if_pos (by rw [← Bool.not_eq_true, within]; exact hw)]
    · rw [run, ready.2 hr, if_neg (by simp), within.2 hw, if_neg (by simp), if_pos]
      push Not at hf
      exact hf
    · rw [run, ready.2 hr, if_neg (by simp), within.2 hw, if_neg (by simp), if_neg]
      · exact if_pos ht
      · push Not
        exact hf

/-- Settles O28: every check passes, and `Group.arm` writes the group. -/
theorem armAcceptsLevelTruss : Obligations.ArmAcceptsLevelTruss := by
  intro s group k cue rest slowest hp hk hs hq hm hpf hslow hall level hflat hfar
  refine complete_console hp ?_
  have ready : s.dropWalk.everyMember k Hoist.readyToMove = true := (State.everyMember_ready ..).2 fun i hi => by
    obtain ⟨h, hr, h1, h2, h3, -⟩ := hall i hi
    exact ⟨h, hr, h1, h2, h3⟩
  have within : s.dropWalk.everyMember k (fun h => h.targetWithin cue.target) = true :=
    (State.everyMember_within ..).2 fun i hi => by
      obtain ⟨h, hr, -, -, -, h4⟩ := hall i hi
      exact ⟨h, hr, h4⟩
  have hslow : s.dropWalk.minRatedSpeed k = some slowest := State.minRatedSpeed_eq (s := s.dropWalk) hslow
  rw [State.arm_checked (s := s.dropWalk) hk hs hq hm hpf, ready, within, if_neg (by simp), if_neg (by simp), if_neg,
    hslow]
  · exact if_neg (Nat.not_le.2 hfar)
  · push Not
    exact hflat

end Sys2Proof.Machine

/-! ## The group records under every step

`GroupsOk` speaks of the group records alone, but for RESTART, which reposts a fault in the group that a record names
(R121): that group must have a member. `State.Manned` adds the half of R31 that says so, and every operation keeps it. -/

namespace Sys2Proof.Machine

/-- The group records obey their laws, and a record that names a group is among its members (R31). -/
structure State.Manned (s : State) : Prop where
  groups : s.GroupsOk
  enrolled : ∀ i k, (s.record i).bind (·.group) = some k → i ∈ (s.group k).members

variable {s t : State} {i : Slot} {k : GroupId} {h : Hoist}

namespace State.Manned

theorem of_membersOk (hm : s.MembersOk) (hg : s.GroupsOk) : s.Manned :=
  ⟨hg, fun i k h => by rw [(hm k).1]; exact (s.mem_naming k i).2 h⟩

/-! ### Changes that the laws do not read -/

/-- The member sets stay, the group records obey their laws, and no record names a new group. -/
theorem of_groups (hs : s.Manned) (hg : t.GroupsOk) (hm : ∀ k, (t.group k).members = (s.group k).members)
    (hr : ∀ i k, (t.record i).bind (·.group) = some k → (s.record i).bind (·.group) = some k) : t.Manned :=
  ⟨hg, fun i k h => by rw [hm]; exact hs.enrolled i k (hr i k h)⟩

/-- The group table stays, and no record names a new group. -/
theorem of_records (hs : s.Manned) (hgr : t.groups = s.groups)
    (hr : ∀ i k, (t.record i).bind (·.group) = some k → (s.record i).bind (·.group) = some k) : t.Manned := by
  have hg : ∀ k, t.group k = s.group k := fun k => by rw [State.group, hgr]; rfl
  exact hs.of_groups (fun k => by rw [hg]; exact hs.groups k) (fun k => by rw [hg]) hr

/-- Both tables stay. -/
theorem of_tables (hs : s.Manned) (hsl : t.slots = s.slots) (hgr : t.groups = s.groups) : t.Manned :=
  hs.of_records hgr fun i k h => by rwa [State.record, State.slot, hsl] at h

theorem withFree (hs : s.Manned) (n : Nat) : State.Manned { s with freeCount := n } := hs.of_tables rfl rfl

theorem withEvents (hs : s.Manned) (e : Option MemberEvents) : State.Manned { s with eventsWaiting := e } :=
  hs.of_tables rfl rfl

/-- GENG's steps. -/
theorem chain (hs : s.Manned) (hc : s.GengChain t) : t.Manned :=
  hs.of_groups (hc.groupsOk hs.groups) hc.work.members fun i k h => by
    rcases hc.work.record i with e | ⟨v, r, hv, hm, e⟩
    · rwa [e] at h
    · rw [e, Option.bind_some, hm.group] at h
      rwa [hv]

/-- What a command writes in one group. -/
theorem edits (hs : s.Manned) (he : s.EditsGroup t) : t.Manned := by
  rcases he with rfl | ⟨k, g, he, rfl⟩
  · exact hs
  · refine hs.of_groups (fun j => ?_) (fun j => ?_) fun _ _ => id
    · rw [State.group_withGroup]
      split
      · next e => exact e ▸ he.ok (hs.groups k)
      · exact hs.groups j
    · rw [State.group_withGroup]
      split
      · next e => exact e ▸ he.members
      · rfl

/-! ### Changes of one slot -/

theorem setSlot (hs : s.Manned) (i : Slot) {e : SlotEntry}
    (he : ∀ k, e.record.bind (·.group) = some k → (s.record i).bind (·.group) = some k) : (s.setSlot i e).Manned :=
  hs.of_records rfl fun j k h => by
    rw [State.record_setSlot] at h
    split at h
    · next e => exact e ▸ he k h
    · exact h

/-- A record changes, but not its group. -/
theorem modRecord (hs : s.Manned) (i : Slot) {f : Hoist → Hoist} (hf : ∀ h, (f h).group = h.group) :
    (s.modRecord i f).Manned :=
  hs.setSlot i fun k h => by
    have h : ((s.record i).map f).bind (·.group) = some k := h
    cases hr : s.record i with
    | none => rw [hr] at h; cases h
    | some v => rwa [hr, Option.map_some, Option.bind_some, hf] at h

theorem editsSlot (hs : s.Manned) (he : s.EditsSlot t) : t.Manned := by
  rcases he with rfl | ⟨i, e, rfl, hr⟩
  · exact hs
  · refine hs.setSlot i fun k h => ?_
    rcases hr with hr | ⟨v, r, hv, he, hr⟩
    · rwa [hr] at h
    · rw [hr, Option.bind_some, he.fields] at h
      rwa [hv]

end State.Manned

/-- A write of the current set leaves a record's group. -/
theorem SlotEntry.group_writeCurrent (e : SlotEntry) (new : CondSet) :
    (e.writeCurrent new).record.bind (·.group) = e.record.bind (·.group) := by
  cases hr : e.record with
  | none => rw [SlotEntry.writeCurrent_none hr, hr]
  | some h => rw [SlotEntry.writeCurrent_record hr]; rfl

theorem SlotEntry.group_addCurrent (c : Cond) (e : SlotEntry) :
    (e.addCurrent c).record.bind (·.group) = e.record.bind (·.group) := by
  unfold SlotEntry.addCurrent
  split
  · rfl
  · exact e.group_writeCurrent _

theorem SlotEntry.group_removeCurrent (c : Cond) (e : SlotEntry) :
    (e.removeCurrent c).record.bind (·.group) = e.record.bind (·.group) := by
  unfold SlotEntry.removeCurrent
  split
  · rfl
  · exact e.group_writeCurrent _

namespace State.Manned

theorem slotAttention (hs : s.Manned) (i : Slot) : (s.slotAttention i).Manned := hs.setSlot i fun _ => id

theorem addCurrent (hs : s.Manned) (i : Slot) (c : Cond) : (s.modSlot i (SlotEntry.addCurrent c)).Manned :=
  hs.setSlot i fun k h => by rwa [SlotEntry.group_addCurrent] at h

theorem removeCurrent (hs : s.Manned) (i : Slot) (c : Cond) : (s.modSlot i (SlotEntry.removeCurrent c)).Manned :=
  hs.setSlot i fun k h => by rwa [SlotEntry.group_removeCurrent] at h

theorem endJog (hs : s.Manned) (cause : JogEndCause) : (s.endJog cause).Manned := by
  rcases s.endJog_cases cause with ⟨-, e⟩ | ⟨i, -, e⟩ <;> rw [e]
  · exact hs
  · have ht : State.Manned { s with
        safety := { s.safety with jogSlot := none, jogTimer := none, lastJogEnd := some ⟨i, cause⟩ } } :=
      hs.of_tables rfl rfl
    exact (ht.modRecord i Hoist.group_endJog).slotAttention i

/-! ### Rounds and deliveries -/

theorem modLink (hs : s.Manned) (f : Link → Link) : (s.modLink f).Manned := hs.of_tables rfl rfl

theorem completeRound (hs : s.Manned) : s.completeRound.Manned := by
  have ht := hs.chain s.settleRounds_chain
  unfold State.completeRound State.decideRound
  generalize s.settleRounds = t at ht ⊢
  exact ht.modLink _

theorem completeIfDone (hs : s.Manned) : s.completeIfDone.Manned := by
  unfold State.completeIfDone
  split
  · exact hs.completeRound
  · exact hs

theorem completeIdleRound (hs : s.Manned) : s.completeIdleRound.Manned := by
  unfold State.completeIdleRound
  split
  · exact hs.completeIfDone
  · exact hs

theorem endPoll (hs : s.Manned) (i : Slot) (rest : Nat) : (s.endPoll i rest).Manned := by
  unfold State.endPoll
  dsimp only
  split
  · exact hs.modLink _
  · exact (hs.modLink _).completeIfDone

theorem deliverEvents (hs : s.Manned) : s.deliverEvents.Manned := by
  unfold State.deliverEvents
  split
  · next e _ =>
    exact ((hs.withEvents none).chain (State.takeEvents_chain _ e)).completeIdleRound
  · exact hs

theorem estopLink (hs : s.Manned) : s.estopLink.Manned := by
  unfold State.estopLink
  split
  · exact hs
  · split
    · exact (((hs.modLink _).modLink _).completeIfDone).modLink _
    · exact hs.modLink _

theorem takeDelivery (hs : s.Manned) : s.takeDelivery.Manned := by
  have ht : (s.deliverEstop s.linkFirst).Manned := by
    unfold State.deliverEstop
    split
    · exact hs.estopLink.chain (State.estopGroups_chain _)
    · exact (hs.chain s.estopGroups_chain).estopLink
  exact ht.withFree _

theorem deliverWaiting (hs : s.Manned) : s.deliverWaiting.Manned := by
  unfold State.deliverWaiting
  split
  · have ht : State.Manned { s with safety := { s.safety with estopWaiting := false } } := hs.of_tables rfl rfl
    exact ht.takeDelivery
  · exact hs

/-! ### Losses, misses and replies -/

theorem leavePollList (hs : s.Manned) (i : Slot) : (s.leavePollList i).Manned := by
  unfold State.leavePollList
  dsimp only
  split
  · split
    · exact (hs.modLink _).modLink _
    · exact hs.modLink _
  all_goals exact (hs.modLink _).completeIdleRound

theorem leaveSlot (hs : s.Manned) (i : Slot) (h : Hoist) (cause : Release) : (s.leaveSlot i h cause).Manned := by
  have ht : (s.emptied i h cause).Manned := hs.of_records rfl fun j k hj => by
    rw [State.record_emptied] at hj
    split at hj
    · cases hj
    · exact hj
  rw [State.leaveSlot_emptied]
  exact ht.leavePollList i

theorem leaveSlotNoted (hs : s.Manned) (i : Slot) (h : Hoist) (cause : Release) : (s.leaveSlotNoted i h cause).Manned :=
  (hs.slotAttention i).leaveSlot i h cause

theorem lose (hs : s.Manned) (i : Slot) (h : Hoist) : (s.lose i h).Manned := by
  have ht := ((hs.modRecord i (f := Hoist.lose) fun _ => rfl).addCurrent i .lost).slotAttention i
  unfold State.lose
  generalize ((s.modRecord i Hoist.lose).modSlot i (SlotEntry.addCurrent .lost)).slotAttention i = t at ht
  have hu : State.Manned (match h.group with
      | some k => t.lossEvent k i (some h.missCount)
      | none => t) := by
    split
    · exact ht.chain (t.lossEvent_chain ..)
    · exact ht
  dsimp only
  split
  · exact hu.endJog _
  · exact hu

theorem miss (hs : s.Manned) (i : Slot) (reason : MissReason) : (s.miss i reason).Manned := by
  have ht := (hs.modRecord i (f := fun h => h.countMiss reason s.link.lossThreshold) fun _ => rfl).addCurrent i .linkErr
  unfold State.miss
  dsimp only
  split
  · exact ht
  · split
    · unfold State.thresholdEvent
      split
      · exact ht.leaveSlotNoted ..
      · exact ht.leaveSlotNoted ..
      · exact ht
      all_goals exact ht.lose ..
    · exact ht

theorem acceptReply (hs : s.Manned) (i : Slot) : (s.acceptReply i).Manned :=
  (hs.modRecord i (f := fun h => { h with missCount := 0 }) fun _ => rfl).removeCurrent i .linkErr

theorem statusTransition (hs : s.Manned) (i : Slot) (flags : Byte) : (s.statusTransition i flags).Manned := by
  unfold State.statusTransition
  split
  · exact hs
  · split
    · split
      · exact hs.modRecord i fun _ => rfl
      · exact hs
    · exact (hs.removeCurrent i .lost).modRecord i fun _ => rfl
    · split
      · exact hs.leaveSlotNoted ..
      · exact hs
    all_goals exact hs

theorem jogProgress (hs : s.Manned) (i : Slot) : (s.jogProgress i).Manned := by
  unfold State.jogProgress
  split
  · exact hs
  · split
    · split
      · exact hs.endJog _
      · split
        · exact hs.endJog _
        · exact hs
    · exact hs

theorem handed (hs : s.Manned) (i : Slot) (g : Option GroupId) (before after stopped : Bool) :
    (s.handed i g before after stopped).Manned :=
  (((hs.chain (s.handCondition_chain i)).chain (State.handLanded_chain ..)).chain (State.handStopped_chain ..)).jogProgress i

theorem evaluate (hs : s.Manned) (i : Slot) (stopped : Bool) : (s.evaluate i stopped).Manned := by
  cases hr : s.record i with
  | none =>
    have : s.evaluate i stopped = s := by simp [State.evaluate, hr]
    rwa [this]
  | some h =>
    have ht : (s.evaluated i h).Manned := hs.setSlot i fun k e => by
      rw [SlotEntry.group_writeCurrent, Option.bind_some, State.group_evaluation] at e
      rwa [hr]
    rcases State.evaluate_cases hr stopped with ⟨-, e⟩ | ⟨ev, -, e | e⟩ <;> rw [e]
    · exact ht.handed ..
    · exact (ht.withFree _).handed ..
    · exact (ht.withFree _).withEvents _

theorem takeIdent (hs : s.Manned) (i : Slot) (flags : Byte) (ratedLoad ratedSpeed : Nat) :
    (s.takeIdent i flags ratedLoad ratedSpeed).Manned := by
  have ht := (hs.acceptReply i).modRecord i (f := fun h => { h with nodeFlags := some flags }) fun _ => rfl
  unfold State.takeIdent
  generalize (s.acceptReply i).modRecord i (fun h => { h with nodeFlags := some flags }) = t at ht
  dsimp only
  split
  · exact ht
  · split
    · refine State.Manned.slotAttention ?_ i
      exact ht.modRecord i fun _ => rfl
    · exact ht.leaveSlotNoted ..

theorem judgeAndTake (hs : s.Manned) (p : PollInFlight) (early : Bool) (bytes : List Byte) :
    (s.judgeAndTake p early bytes).Manned := by
  unfold State.judgeAndTake State.applyReply
  split
  · exact hs
  · split
    · exact hs.miss ..
    · split
      · exact hs.miss ..
      · split
        · exact (((hs.acceptReply _).modRecord _ (f := fun h => h.report ..) fun _ => rfl).statusTransition ..).evaluate ..
        · exact hs.takeIdent ..

theorem takeFrame (hs : s.Manned) (bytes : List Byte) (rest : Nat) : (s.takeFrame bytes rest).Manned := by
  unfold State.takeFrame
  split
  · split
    · refine (endPoll ?_ _ _).deliverWaiting
      split
      · exact hs
      · exact hs.judgeAndTake ..
    all_goals exact hs
  · split
    · exact hs.modLink _
    · exact hs

theorem takeResponseExpiry (hs : s.Manned) : s.takeResponseExpiry.Manned := by
  unfold State.takeResponseExpiry
  split
  · split
    · refine endPoll ?_ _ _
      split
      · exact hs
      · exact hs.miss ..
    all_goals exact hs
  · exact hs

/-! ### The console's commands -/

theorem takeJog (hs : s.Manned) (slot direction : Byte) (distance : BitVec 16) :
    (s.takeJog slot direction distance).1.Manned := by
  rcases s.takeJog_cases slot direction distance with e | ⟨i, h, dir, d, p, -, -, -, -, -, -, -, -, e⟩ <;> rw [e]
  · exact hs
  · exact (hs.modRecord i (f := fun h => { h with
      state := .jogging, demand := h.jogDemand, direction := dir.direction, jogStart := some p, jogDistance := some d })
      fun _ => rfl).of_tables rfl rfl

/-- A record that leaves the member set of its group at rest (R33, R34). -/
theorem leaveGroup (hs : s.Manned) (hr : s.record i = some h) (ha : s.groupAllows h GroupState.atRest = true) :
    (s.leaveGroup i).Manned := by
  unfold State.leaveGroup
  rw [hr, Option.bind_some]
  cases hk : h.group with
  | none => exact hs
  | some k =>
    have hrest : (s.group k).state.atRest = true := (s.groupAllows_iff ..).1 ha k hk
    refine ⟨fun j => ?_, fun j n hj => ?_⟩
    · rw [State.group_modRecord, State.group_modGroup]
      split
      · next e => exact e ▸ (hs.groups k).dropMember hrest i
      · exact hs.groups j
    · rw [State.record_modRecord, State.record_modGroup] at hj
      rw [State.group_modRecord, State.group_modGroup]
      have hne : i ≠ j := fun e => by
        subst e
        rw [if_pos rfl, hr] at hj
        cases hj
      rw [if_neg hne] at hj
      have hmem := hs.enrolled j n hj
      split
      · next e =>
        subst e
        rw [Group.members_dropMember, mem_removeSlot]
        exact ⟨hmem, hne.symm⟩
      · exact hmem

theorem joinGroup (hs : s.Manned) (i : Slot) (k : GroupId) : (s.joinGroup i k).Manned := by
  refine ⟨fun j => ?_, fun j n hj => ?_⟩
  · rw [State.joinGroup, State.group_modGroup]
    split
    · next e => exact e ▸ (hs.groups k).addMember i
    · exact hs.groups j
  · have hadd : j = i ∧ k = n ∨ j ∈ (s.group n).members := by
      rw [State.joinGroup, State.record_modGroup, State.record_modRecord] at hj
      by_cases hij : i = j
      · rw [if_pos hij] at hj
        cases hr : s.record j with
        | none => rw [hr] at hj; cases hj
        | some v => rw [hr] at hj; exact .inl ⟨hij.symm, Option.some.inj hj⟩
      · rw [if_neg hij] at hj
        exact .inr (hs.enrolled j n hj)
    have hset : (s.group k).addMember i = { (s.group k).addMember i with members := insertSlot i (s.group k).members } := rfl
    rw [State.joinGroup, State.group_modGroup, State.group_modRecord]
    split
    · next e =>
      subst e
      rw [hset, mem_insertSlot]
      exact hadd.imp_left And.left
    · next e => exact hadd.resolve_left fun h => e h.2

theorem retire (hs : s.Manned) (slot : Byte) : (s.retire slot).1.Manned := by
  rcases s.retire_cases slot with e | ⟨i, h, hr, ha, ⟨-, e⟩ | ⟨-, e⟩⟩ <;> rw [e]
  · exact hs
  · exact (hs.leaveGroup hr ha).modRecord i fun _ => rfl
  · exact (hs.leaveGroup hr ha).leaveSlot ..

theorem assign (hs : s.Manned) (slot group : Byte) : (s.assign slot group).1.Manned := by
  rcases s.assign_cases slot group with e | ⟨i, h, hr, -, ha, e | ⟨k, -, -, e⟩⟩ <;> rw [e]
  · exact hs
  · exact hs.leaveGroup hr ha
  · exact (hs.leaveGroup hr ha).joinGroup i k

theorem admitSlot (hs : s.Manned) (slot address : Byte) (lower upper trim : BitVec 16) :
    (s.admitSlot slot address lower upper trim).1.Manned := by
  rcases s.admitSlot_cases slot address lower upper trim with e | ⟨i, a, lo, up, tr, -, -, -, -, -, e⟩ <;> rw [e]
  · exact hs
  · obtain ⟨-, hsl, hgr, -⟩ := State.enterPollList_spec
      { s.setSlot i { s.slot i with record := some (Hoist.admitted a lo up tr), attention := false } with
        nodeMap := insertAddress (Hoist.admitted a lo up tr).address i s.nodeMap } i
    exact (hs.setSlot i (fun _ e => by cases e)).of_tables hsl hgr

theorem lowerCount (hs : s.Manned) (new : Nat) (i : Slot) : (s.lowerCount new i).Manned := by
  unfold State.lowerCount
  split
  · exact hs
  · split
    · exact (hs.modRecord i (f := fun r => { r with missCount := new }) fun _ => rfl).lose ..
    · split
      · exact hs.modRecord i fun _ => rfl
      · exact hs

theorem raiseCount (hs : s.Manned) (new : Nat) (i : Slot) : (s.raiseCount new i).Manned := by
  unfold State.raiseCount
  split
  · exact hs.modRecord i fun _ => rfl
  · exact hs

/-- A walk over a list, each of whose steps keeps the laws. -/
theorem foldl {α : Type} {f : State → α → State} (hf : ∀ (t : State) (a : α), t.Manned → (f t a).Manned) (hs : s.Manned)
    (l : List α) : (l.foldl f s).Manned := by
  induction l generalizing s with
  | nil => exact hs
  | cons a l ih => exact ih (hf s a hs)

theorem configureLink (hs : s.Manned) (timeout : BitVec 16) (threshold : Byte) (idle : BitVec 16) :
    (s.configureLink timeout threshold idle).1.Manned := by
  rcases s.configureLink_cases timeout threshold idle with e | ⟨-, wait, new, pause, -, -, -, -, -, -, -, -, e⟩ <;> rw [e]
  · exact hs
  · have ht : State.Manned { s with
        link := { s.link with responseTimeout := wait, lossThreshold := new, idleInterval := pause } } :=
      hs.of_tables rfl rfl
    generalize ({ s with link := _ } : State) = t at ht ⊢
    unfold State.applyThreshold
    split
    · exact foldl (fun _ i ht => ht.lowerCount _ i) ht _
    · split
      · exact foldl (fun _ i ht => ht.raiseCount _ i) ht _
      · exact ht

/-- RESTART reposts in groups that have a member: these are GST_IDLE then (R52, R121). -/
theorem takeRestart (hs : s.Manned) : s.takeRestart.1.Manned := by
  unfold State.takeRestart
  split
  · exact hs
  · obtain ⟨-, hsl, hgr⟩ := s.restart_spec
    dsimp only
    generalize s.restartBlocks.repostAll = t at hsl hgr ⊢
    refine hs.of_groups (fun k => ?_) (fun k => ?_) fun i k hi => ?_
    · rw [hgr]
      refine (hs.groups k).restart.postFirst fun hp => ?_
      obtain ⟨i, -, hi⟩ := List.findSome?_isSome_iff.1 hp
      have hmem : i ∈ (s.group k).members := hs.enrolled i k (by
        unfold State.repostOf at hi
        cases hr : s.record i with
        | none => rw [hr] at hi; cases hi
        | some v =>
          rw [hr, Option.bind_some] at hi
          split at hi
          · next hg => exact hg
          · cases hi)
      have hne : (s.group k).members.isEmpty = false := by
        cases hm : (s.group k).members with
        | nil => rw [hm] at hmem; cases hmem
        | cons => rfl
      unfold Group.restart
      rw [hne]
      rfl
    · rw [hgr, Group.members_postFirst]
      rfl
    · have hr : t.record i = (s.record i).map fun h => { h with accrued := [], baseline := none } := by
        rw [State.record, hsl]
        rfl
      rwa [hr, Option.bind_map] at hi

/-! ### The lines, the timers and the clock -/

theorem cutPower (hs : s.Manned) : s.cutPower.Manned := by
  have hgr : s.cutPower.groups = s.groups := s.groups_mapSlots _
  refine hs.of_records hgr fun i k hi => ?_
  rw [State.record_cutPower] at hi
  cases hr : s.record i with
  | none => rw [hr] at hi; cases hi
  | some v => rwa [hr, Option.map_some, Option.bind_some, v.cutPower_fields.2.1] at hi

theorem takeEstopAssertion (hs : s.Manned) : s.takeEstopAssertion.Manned := by
  have ht : State.Manned { s with safety := { s.safety with estopAsserted := true, permit := false, estopSeen := true } } :=
    hs.of_tables rfl rfl
  have ha : s.assertEstop.Manned := ht.cutPower.endJog _
  unfold State.takeEstopAssertion
  split
  · exact hs
  · dsimp only
    split
    · exact ha.of_tables rfl rfl
    · exact ha.takeDelivery

theorem takeLandingExpiry (hs : s.Manned) (k : GroupId) : (s.takeLandingExpiry k).Manned := by
  have ht : State.Manned (if s.allLanded k then s.deliverEvents else s) := by
    split
    · exact hs.deliverEvents
    · exact hs
  unfold State.takeLandingExpiry
  generalize (if s.allLanded k then s.deliverEvents else s) = t at ht
  dsimp only
  split
  · next hk => exact ht.chain (State.landingExpiry_chain _ k ((ht.groups k).lands hk))
  · exact ht

theorem takeStepExpiry (hs : s.Manned) (ht : s.takeStepExpiry k = some t) : t.Manned := by
  rcases State.takeStepExpiry_cases ht with rfl | ⟨hk, g, hg, rfl⟩
  · exact hs
  · obtain ⟨g', hg', hok, -, hmem⟩ := (hs.groups k).profileStep hk (s.minRatedSpeed k)
    cases hg.symm.trans hg'
    refine hs.of_groups (fun j => ?_) (fun j => ?_) fun _ _ => id
    · rw [State.group_withGroup]
      split
      · next e => exact e ▸ hok
      · exact hs.groups j
    · rw [State.group_withGroup]
      split
      · next e => exact e ▸ hmem
      · rfl

theorem beginPoll (hs : s.Manned) (i : Slot) (h : Hoist) : (s.beginPoll i h).Manned :=
  (hs.modRecord i (f := fun r => { r with seqBit := !h.seqBit }) fun _ => rfl).modLink _

theorem pollNext (hs : s.Manned) : s.pollNext.Manned := by
  unfold State.pollNext
  split
  · split
    · exact hs
    · split
      · exact hs
      · exact hs.beginPoll ..
  · exact hs

end State.Manned

/-- Every operation keeps the laws of the group records. -/
theorem manned_kept : Kept State.Manned where
  port _ _ hs := hs.of_tables rfl rfl
  pending _ _ hs := hs.of_tables rfl rfl
  repace s hs := hs.of_tables s.slots_repace s.groups_repace
  takeLook s kind block index hs := by
    unfold State.takeLook
    split
    · exact hs
    · exact hs.of_tables rfl rfl
  clearAttention s kind index hs := by
    rcases s.clearAttention_cases kind index with e | e | e
    · exact hs.edits e
    · exact hs.editsSlot e
    · exact e ▸ hs.of_tables rfl rfl
  admitSlot _ slot address lower upper trim hs := hs.admitSlot slot address lower upper trim
  amend s _ _ _ _ _ _ _ _ hs := hs.editsSlot (s.amend_edits ..)
  retire _ slot hs := hs.retire slot
  assign _ slot group hs := hs.assign slot group
  clearFlags s slot hs := hs.editsSlot (s.clearFlags_edits slot)
  setGroup s _ _ _ _ _ _ _ _ _ _ hs := hs.edits (s.setGroup_edits ..)
  queueCue s _ _ _ _ _ _ hs := hs.edits (s.queueCue_edits ..)
  flush s group hs := hs.edits (s.flush_edits group)
  arm s group hs := hs.edits (s.arm_edits group)
  startMove s k hs := hs.chain (s.startMove_chain k)
  holdJog s hs := by
    unfold State.holdJog
    split
    · exact hs.of_tables rfl rfl
    · exact hs
  holdGroup s k hs := hs.edits (s.holdGroup_edits k)
  haltGroup s k hs := by
    rcases s.haltGroup_cases k with e | ⟨hm, e⟩
    · exact hs.edits e
    · rw [e]
      exact hs.chain (.single (.stop k _ _ _ hm))
  stageSpeed s _ _ hs := hs.edits (s.stageSpeed_edits ..)
  stageTarget s _ _ hs := hs.edits (s.stageTarget_edits ..)
  ackFault s group hs := hs.edits (s.ackFault_edits group)
  takeJog _ slot direction distance hs := hs.takeJog slot direction distance
  endJog _ cause hs := hs.endJog cause
  configureLink _ timeout threshold idle hs := hs.configureLink timeout threshold idle
  takePermit s hs := by
    unfold State.takePermit
    split
    · exact hs
    · exact hs.of_tables rfl rfl
  takeRestart _ hs := hs.takeRestart
  afterReset a b c d now n l := by
    have hs := resetMeetsInvariant a b c d
    exact (State.Manned.of_membersOk hs.members hs.groups).of_tables rfl rfl
  takeEstopAssertion _ hs := hs.takeEstopAssertion
  deliverWaiting _ hs := hs.deliverWaiting
  deliverEvents _ hs := hs.deliverEvents
  releaseEstop s _ hs := by
    unfold State.releaseEstop
    split
    · exact hs.of_tables rfl rfl
    · exact hs
  riseCue s line hs := by
    unfold State.riseCue
    split
    · exact hs
    · have ht : State.Manned { s with safety := s.safety.setCue line true } := hs.of_tables rfl rfl
      exact ht.chain (State.startAll_chain ..)
  fallCue s line hs := by
    rcases s.fallCue_cases line with e | hc
    · rwa [e]
    · have ht : State.Manned { s with safety := s.safety.setCue line false } := hs.of_tables rfl rfl
      exact ht.chain hc
  takeStepExpiry _ _ hs _ ht := hs.takeStepExpiry ht
  takeHoldExpiry _ k hs := hs.chain (hs.groups.holdExpiry_chain k)
  takeLandingExpiry _ k hs := hs.takeLandingExpiry k
  takeStopExpiry _ k hs := hs.chain (hs.groups.stopExpiry_chain k)
  takeResponseExpiry _ hs := hs.takeResponseExpiry
  takeRoundStart s hs := by
    unfold State.takeRoundStart
    split
    · split
      · exact hs
      · split <;> exact hs.of_tables rfl rfl
    · exact hs
  pollNext _ _ hs := hs.pollNext
  takeEndOfPoll s hs := by
    unfold State.takeEndOfPoll
    split
    · split
      · exact hs.modLink _
      · exact hs
    · exact hs
  takeHaltAll s hs := by
    unfold State.takeHaltAll
    split
    · exact hs.modLink _
    · exact hs
  takeFrame _ bytes rest hs := hs.takeFrame bytes rest
  takeFirstStartBit s elapsed hs := by
    unfold State.takeFirstStartBit
    split
    · split
      · split
        · exact hs.modLink _
        · exact hs.takeResponseExpiry
      all_goals exact hs
    · exact hs
  count s hs := hs.of_groups (fun k => by rw [State.group_count]; exact (hs.groups k).tick)
    (fun k => by rw [State.group_count]; rfl) fun _ _ => id

/-- Settles O9: the premise on the member sets makes every group that a record names a group with a member. -/
theorem stepKeepsGroupRecords : Obligations.StepKeepsGroupRecords := fun _ _ hm hg he =>
  (manned_kept.step (.of_membersOk hm hg) he).groups

end Sys2Proof.Machine

/-! ## Walks over the groups, and the edges of the cue lines -/

namespace Sys2Proof.Machine

variable {s t : State} {i : Slot} {j k : GroupId}

/-! ### Operations on one group -/

/-- No slot is a member of two groups. -/
def State.MembersApart (s : State) : Prop :=
  ∀ i j k, i ∈ (s.group j).members → i ∈ (s.group k).members → j = k

theorem State.MembersOk.apart (hm : s.MembersOk) : s.MembersApart := fun _ _ _ => hm.unique

theorem State.MembersApart.of_members (hs : s.MembersApart) (h : ∀ k, (t.group k).members = (s.group k).members) :
    t.MembersApart := fun i j k => by
  rw [h, h]
  exact hs i j k

/-- The two states agree on a group: on its record and on its members' slots. -/
structure State.AgreeOn (s t : State) (k : GroupId) : Prop where
  group : t.group k = s.group k
  slot : ∀ i ∈ (s.group k).members, t.slot i = s.slot i

theorem State.AgreeOn.record (h : s.AgreeOn t k) : ∀ i ∈ (s.group k).members, t.record i = s.record i :=
  fun i hi => congrArg SlotEntry.record (h.slot i hi)

/-- An operation on one group: it reads and writes the group's record and its members' slots, and nothing else. -/
structure OnGroup (k : GroupId) (f : State → State) : Prop where
  tables : ∀ s : State, s.TablesOnly (f s)
  members : ∀ (s : State) (j : GroupId), ((f s).group j).members = (s.group j).members
  group_ne : ∀ (s : State) (j : GroupId), k ≠ j → (f s).group j = s.group j
  slot_ne : ∀ (s : State) (i : Slot), i ∉ (s.group k).members → (f s).slot i = s.slot i
  congr : ∀ s t : State, s.AgreeOn t k → (f s).AgreeOn (f t) k

/-- A write of the group's record and of its members' records, each from what stood there. -/
theorem modMembers_congr (h : s.AgreeOn t k) {f : Group → Group} (hf : ∀ g, (f g).members = g.members)
    (m : Hoist → Hoist) : ((s.modGroup k f).modMembers k m).AgreeOn ((t.modGroup k f).modMembers k m) k := by
  refine ⟨?_, fun i hi => ?_⟩
  · rw [State.group_modMembers, State.group_modMembers, State.group_modGroup_self, State.group_modGroup_self, h.group]
  · rw [State.group_modMembers, State.group_modGroup_self, hf] at hi
    have ht : i ∈ (t.group k).members := by rwa [h.group]
    rw [State.slot_modMembers, State.slot_modMembers, State.group_modGroup_self, State.group_modGroup_self, hf, hf,
      if_pos hi, if_pos ht]
    exact congrArg (fun e : SlotEntry => { e with record := e.record.map m }) (h.slot i hi)

/-- The start of a group reads its record and the heights of its members (R43, R44). -/
theorem startMove_onGroup (k : GroupId) : OnGroup k fun s => s.startMove k where
  tables s := s.startMove_tables k
  members s j := (s.startMove_work k).members j
  group_ne s _ h := s.group_startMove_ne h
  slot_ne s i hi := by
    rcases s.startMove_cases k with e | ⟨cue, dir, -, -, -, e⟩ <;> rw [e]
    rw [State.slot_modMembers, State.group_modGroup_self]
    exact if_neg hi
  congr s t h := by
    have heights : t.normalHeights k = s.normalHeights k := by
      unfold State.normalHeights State.memberRecords
      rw [h.group, List.filterMap_congr h.record]
    unfold State.startMove
    rw [h.group]
    split
    · next cue dir _ _ _ =>
      rw [heights]
      exact modMembers_congr h (f := fun g => g.begin cue dir (average (s.normalHeights k))) (fun _ => rfl) Hoist.startMove
    · exact h

/-- The test for completion reads whether the members are at rest (R113). -/
theorem testStop_congr (h : s.AgreeOn t k) : (s.testStop k).AgreeOn (t.testStop k) k := by
  have hrest : t.allAtRest k = s.allAtRest k := by
    unfold State.allAtRest
    rw [h.group]
    rw [Bool.eq_iff_iff, List.all_eq_true, List.all_eq_true]
    exact forall₂_congr fun i hi => by rw [h.record i hi]
  have hmem : ((s.testStop k).group k).members = (s.group k).members := (s.testStop_work k).members k
  refine ⟨?_, fun i hi => ?_⟩
  · unfold State.testStop
    rw [hrest, h.group]
    split
    · rw [State.group_modGroup_self, State.group_modGroup_self, h.group]
    · exact h.group
  · rw [State.slot_testStop, State.slot_testStop]
    exact h.slot i (hmem ▸ hi)

/-- The loss of the hold reads the group's record and where its members stand (R112, R128). -/
theorem loseHold_onGroup (k : GroupId) : OnGroup k fun s => s.loseHold k where
  tables s := s.loseHold_tables k
  members s j := (s.loseHold_work k).members j
  group_ne s _ h := by
    rw [State.loseHold, State.group_modGroup, if_neg h, s.group_enterStopping_ne h]
  slot_ne s i hi := by
    rw [State.loseHold, State.slot_modGroup, State.slot_enterStopping, if_neg hi]
  congr s t h := by
    have stopped : (s.enterStopping k .holdLost none none).AgreeOn (t.enterStopping k .holdLost none none) k :=
      testStop_congr (modMembers_congr h (f := fun g => g.beginStop .holdLost none none) (fun _ => rfl) Hoist.stop)
    refine ⟨?_, fun i hi => ?_⟩
    · simp only [State.loseHold, State.group_modGroup_self, stopped.group]
    · rw [State.loseHold, State.group_modGroup_self] at hi
      exact stopped.slot i hi

/-! ### What is acted on, and what is not -/

section Acted
variable {p : GroupId → Prop} {act : GroupId → State}

theorem State.ActedOn.group (h : s.ActedOn t p act) (hk : p k) : t.group k = (act k).group k := (h.2.1 k).1 hk

theorem State.ActedOn.group_not (h : s.ActedOn t p act) (hk : ¬ p k) : t.group k = s.group k := (h.2.1 k).2 hk

theorem State.ActedOn.slot (h : s.ActedOn t p act) (hk : p k) (hi : i ∈ (s.group k).members) :
    t.slot i = (act k).slot i := (h.2.2 i).1 k hk hi

theorem State.ActedOn.slot_not (h : s.ActedOn t p act) (hi : ∀ k, p k → i ∉ (s.group k).members) : t.slot i = s.slot i :=
  (h.2.2 i).2 hi

end Acted

/-! ### The walk -/

/-- A walk over groups that acts on those whose record passes a test: with member sets apart, each acts as it would alone. -/
theorem foldl_actedOn {p : Group → Prop} [DecidablePred p] {act : GroupId → State → State}
    (ha : ∀ k, OnGroup k (act k)) (hs : s.MembersApart) {l : List GroupId} (hl : l.Nodup) :
    s.ActedOn (l.foldl (fun t k => if p (t.group k) then act k t else t) s) (fun k => k ∈ l ∧ p (s.group k))
      fun k => act k s := by
  induction l using List.reverseRecOn with
  | nil => simp [State.ActedOn]
  | append_singleton l j ih =>
    obtain ⟨hl1, -, hl2⟩ := List.nodup_append.1 hl
    have hj : j ∉ l := fun h => hl2 j h j (by simp) rfl
    obtain ⟨htab, hgrp, hslot⟩ := ih hl1
    rw [List.foldl_append, List.foldl_cons, List.foldl_nil]
    generalize l.foldl (fun t k => if p (t.group k) then act k t else t) s = t at htab hgrp hslot ⊢
    have agree : s.AgreeOn t j := by
      refine ⟨(hgrp j).2 fun h => hj h.1, fun i hi => (hslot i).2 fun k hk hik => ?_⟩
      exact hj (hs i j k hi hik ▸ hk.1)
    by_cases hp : p (s.group j)
    · rw [if_pos (agree.group ▸ hp)]
      have acted := (ha j).congr s t agree
      have htabs : s.TablesOnly t := by rw [htab]; exact ⟨rfl, rfl, rfl, rfl, rfl, rfl, rfl, rfl⟩
      have hmem : (t.group j).members = (s.group j).members := by rw [agree.group]
      refine ⟨(htabs.trans ((ha j).tables t)).eq, fun k => ?_, fun i => ?_⟩
      · by_cases hk : j = k
        · subst hk
          exact ⟨fun _ => acted.group, fun hn => absurd ⟨by simp, hp⟩ hn⟩
        · have hmk : k ∈ l ++ [j] ↔ k ∈ l := by simp [Ne.symm hk]
          dsimp only
          rw [(ha j).group_ne t k hk, hmk]
          exact hgrp k
      · by_cases hi : i ∈ (s.group j).members
        · have hij : (act j t).slot i = (act j s).slot i := acted.slot i ((ha j).members s j ▸ hi)
          exact ⟨fun k _ hk => by rw [← hs i j k hi hk]; exact hij, fun hn => absurd hi (hn j ⟨by simp, hp⟩)⟩
        · have hne : ∀ k, i ∈ (s.group k).members → j ≠ k := fun k hk e => hi (e ▸ hk)
          rw [(ha j).slot_ne t i (hmem ▸ hi)]
          refine ⟨fun k hk hik => (hslot i).1 k ⟨?_, hk.2⟩ hik, fun hn => (hslot i).2 fun k hk => hn k ⟨by simp [hk.1], hk.2⟩⟩
          simpa [(hne k hik).symm] using hk.1
    · rw [if_neg (agree.group ▸ hp)]
      have same : ∀ k, k ∈ l ++ [j] ∧ p (s.group k) ↔ k ∈ l ∧ p (s.group k) := fun k => by
        simp only [List.mem_append, List.mem_singleton]
        exact ⟨fun ⟨h, hk⟩ => ⟨h.resolve_right fun e => hp (e ▸ hk), hk⟩, fun ⟨h, hk⟩ => ⟨.inl h, hk⟩⟩
      simp only [same]
      exact ⟨htab, hgrp, hslot⟩

/-- The walk over all groups. -/
theorem walk_actedOn {p : Group → Prop} [DecidablePred p] {act : GroupId → State → State} (ha : ∀ k, OnGroup k (act k))
    (hs : s.MembersApart) :
    s.ActedOn ((List.finRange 8).foldl (fun t k => if p (t.group k) then act k t else t) s) (fun k => p (s.group k))
      fun k => act k s := by
  simpa only [List.mem_finRange, true_and] using foldl_actedOn ha hs (List.nodup_finRange 8)

/-- A start event starts exactly the groups that await its source (R43). -/
theorem State.startAll_actedOn (hs : s.MembersApart) (src : StartSource) :
    s.ActedOn (s.startAll src) (fun k => (s.group k).state = .armed ∧ (s.group k).queue.head?.map (·.source) = some src)
      s.startMove := by
  simp only [← Group.awaits_iff]
  exact walk_actedOn (p := fun g => g.awaits src = true) startMove_onGroup hs

/-! ### The edges of the cue lines (R125, R128) -/

/-- Settles O46: the delivery leaves the levels and the member sets, and each edge is a walk over the groups. -/
theorem cueEdgesStartAndStop : Obligations.CueEdgesStartAndStop := by
  intro s line level put source holds u hm
  have hsafe : u.safety = { s.safety with estopWaiting := false } := s.deliverWaiting_spec.2.1
  have hlevel : u.safety.cueLevel line = level := by rw [hsafe]; cases line <;> rfl
  have hput : ∀ high, u.safety.setCue line high = put high := fun high => by rw [hsafe]; cases line <;> rfl
  have apart : ∀ f : Safety, State.MembersApart { u with safety := f } := fun f =>
    hm.apart.of_members s.deliverWaiting_moves.members
  refine ⟨State.deliverWaiting_none, fun hl => ⟨u.riseCue line, rfl, ?_⟩, fun hl => ⟨u.fallCue line, rfl, ?_⟩⟩
  · have hsrc : CueLine.source line = source := by cases line <;> rfl
    rw [State.riseCue, if_neg (by rw [hlevel, hl]; simp), hput, hsrc]
    exact State.startAll_actedOn (apart _) source
  · have hhold : CueLine.holds line = holds := by cases line <;> rfl
    rw [State.fallCue, if_pos (hlevel.trans hl), hput, hhold]
    exact walk_actedOn (p := fun g => g.state = .moving ∧ g.holdSource = some holds) loseHold_onGroup (apart _)

end Sys2Proof.Machine

/-! ## The end of an exchange, and the end of a round -/

namespace Sys2Proof.Machine

variable {s t : State} {i : Slot} {j k : GroupId}

/-! ### The end of an exchange (R144, R145, R149) -/

/-- A poll's end, whole: its slot is the last polled one, and the round completes if it is done and no events wait. -/
theorem State.endPoll_eq (s : State) (i : Slot) (rest : Nat) :
    let ended : State := { s with link := { s.link with
      poll := none, lastPolled := some i, line := .quiet, gap := 30, lineGap := rest } }
    s.endPoll i rest =
      if s.eventsWaiting = none ∧ ∀ j ∈ s.link.pollList, j ≤ i then ended.roundCompleted else ended := by
  intro ended
  have done : ended.link.nextSlot = none ↔ ∀ j ∈ s.link.pollList, j ≤ i := by
    rw [Link.nextSlot_none]
    simp [ended]
  have whole : s.endPoll i rest = if ended.eventsWaiting.isSome = true then ended else ended.completeIfDone := rfl
  rw [whole, State.completeIfDone, State.completeRound_eq_roundCompleted]
  simp only [done]
  cases hev : s.eventsWaiting with
  | none => simp [ended, hev]
  | some e => simp [ended, hev]

/-! ### The pace (R146) -/

/-- What makes rounds fast (R146). -/
theorem State.fastCondition_iff (s : State) : s.fastCondition = true ↔
    (∃ k, (s.group k).state = .armed ∨ (s.group k).state = .moving ∨ (s.group k).state = .stopping ∨
      (s.group k).state = .settling) ∨
    ∃ i, s.hoistState i = some .jogging ∨ s.hoistState i = some .stopping ∨ s.hoistState i = some .admitting ∨
      s.hoistState i = some .retiring := by
  rw [← Bool.not_eq_false, ← s.quiet_iff, State.Quiet, not_and_or, not_forall, not_forall]
  refine or_congr (exists_congr fun k => ?_) (exists_congr fun i => ?_)
  · cases (s.group k).state <;> simp
  · unfold State.hoistState
    cases s.record i with
    | none => simp
    | some h => cases hs : h.state <;> simp [hs]

/-! ### One group counts a round (R84) -/

/-- A group that has counted its last round. -/
def Group.settled (g : Group) : Group := { g.stopTimers with state := .idle, settleRemaining := 0, attention := true }

theorem State.settleRound_ne (h : (s.group k).state ≠ .settling) : s.settleRound k = s := by
  rw [State.settleRound, if_neg h]

theorem State.settleRound_count (h : (s.group k).state = .settling) (hr : ¬ (s.group k).settleRemaining ≤ 1) :
    s.settleRound k = s.withGroup k { s.group k with settleRemaining := (s.group k).settleRemaining - 1 } := by
  rw [State.settleRound, if_pos h, if_neg hr, State.modGroup_eq]

theorem State.settleRound_last (h : (s.group k).state = .settling) (hr : (s.group k).settleRemaining ≤ 1) :
    s.settleRound k = (s.withGroup k (s.group k).settled).startAll (.after k) := by
  rw [State.settleRound, if_pos h, if_pos hr, State.modGroup_eq]
  rfl

/-! ### The round completion of all groups (R46, R84) -/

/-- A group that waits for the end of another's move (R35, R46). -/
def State.Chained (s : State) (j k : GroupId) : Prop :=
  (s.group k).state = .armed ∧ (s.group k).queue.head?.map (·.source) = some (.after j)

/-- A group counts its last round. -/
def State.LastRound (s : State) (j : GroupId) : Prop := (s.group j).state = .settling ∧ (s.group j).settleRemaining ≤ 1

/-- A group that waits for one of these groups, which counts its last round. -/
def State.StartedBy (s : State) (l : List GroupId) (k : GroupId) : Prop := ∃ j ∈ l, s.LastRound j ∧ s.Chained j k

/-- The state in which these groups have counted a round: the settling ones have, the groups chained after those that
counted the last have started, and everything else is as before. -/
structure State.Counted (s t : State) (l : List GroupId) : Prop where
  tables : s.TablesOnly t
  settling : ∀ k ∈ l, (s.group k).state = .settling → t.group k = (s.settleRound k).group k
  started : ∀ k, s.StartedBy l k → (s.startMove k).AgreeOn t k
  group : ∀ k, ¬ (k ∈ l ∧ (s.group k).state = .settling) → ¬ s.StartedBy l k → t.group k = s.group k
  slot : ∀ i, (∀ k, s.StartedBy l k → i ∉ (s.group k).members) → t.slot i = s.slot i

/-- A group that has counted its last round starts no move of its own (R84). -/
theorem State.group_settleRound_last (hs : s.MembersApart) (h : s.LastRound k) :
    (s.settleRound k).group k = (s.group k).settled := by
  have apart : (s.withGroup k (s.group k).settled).MembersApart := hs.of_members fun j => by
    rw [State.group_withGroup]
    split
    · next e => subst e; rfl
    · rfl
  have acted := State.startAll_actedOn apart (.after k)
  rw [State.settleRound_last h.1 h.2, acted.group_not, State.group_withGroup_self]
  rw [State.group_withGroup_self]
  rintro ⟨e, -⟩
  cases e

/-- A start leaves the queue, and a group that it leaves as it was is armed. -/
theorem State.startMove_awaits (s : State) (k : GroupId) :
    ((s.startMove k).group k).queue = (s.group k).queue ∧ ((s.startMove k).group k).state ≠ .settling ∨
      s.startMove k = s := by
  rcases s.startMove_cases k with e | ⟨cue, dir, -, -, -, e⟩
  · exact .inr e
  · refine .inl ?_
    rw [e, State.group_modMembers, State.group_modGroup_self]
    exact ⟨rfl, by simp [Group.begin]⟩

namespace State.Counted

variable {l : List GroupId}

theorem nil (s : State) : s.Counted s [] := by
  have none : ∀ k, ¬ s.StartedBy [] k := fun k ⟨j, hj, _⟩ => nomatch hj
  exact ⟨.refl s, fun _ h => (nomatch h), fun k h => absurd h (none k), fun _ _ _ => rfl, fun _ _ => rfl⟩

/-- The next group has not been touched, unless it was started, when it is not settling. -/
theorem next_group (hc : s.Counted t l) (hj : j ∉ l) (h : (s.group j).state = .settling) : t.group j = s.group j :=
  hc.group j (fun e => hj e.1) fun ⟨_, _, _, ha, _⟩ => by rw [h] at ha; cases ha

theorem next_state (hc : s.Counted t l) (hj : j ∉ l) (h : (s.group j).state ≠ .settling) :
    (t.group j).state ≠ .settling := by
  by_cases hst : s.StartedBy l j
  · rw [(hc.started j hst).group]
    rcases s.startMove_awaits j with ⟨-, e⟩ | e
    · exact e
    · rwa [e]
  · rwa [hc.group j (fun e => hj e.1) hst]

theorem startedBy_append (s : State) (l : List GroupId) (j k : GroupId) :
    s.StartedBy (l ++ [j]) k ↔ s.StartedBy l k ∨ s.LastRound j ∧ s.Chained j k := by
  unfold State.StartedBy
  simp only [List.mem_append, List.mem_singleton, or_and_right, exists_or, exists_eq_left]

/-- A group waits for one group alone. -/
theorem chained_unique {j' : GroupId} (h : s.Chained j k) (h' : s.Chained j' k) : j = j' := by
  have e := h.2.symm.trans h'.2
  simpa using e

/-- A group that does not count its last round leaves the others as they are. -/
theorem alone {u : State} (hc : s.Counted t l) (hn : ¬ s.LastRound j) (ht : t.TablesOnly u) (hsl : ∀ i, u.slot i = t.slot i)
    (hne : ∀ k, j ≠ k → u.group k = t.group k)
    (hset : (s.group j).state = .settling → u.group j = (s.settleRound j).group j)
    (hno : (s.group j).state ≠ .settling → u.group j = t.group j) : s.Counted u (l ++ [j]) := by
  have same : ∀ k, s.StartedBy (l ++ [j]) k ↔ s.StartedBy l k := fun k => by
    rw [startedBy_append]
    exact or_iff_left fun h => hn h.1
  have keep : ∀ k, ¬ (j = k ∧ (s.group j).state = .settling) → u.group k = t.group k := fun k h => by
    by_cases e : j = k
    · subst e
      exact hno fun e => h ⟨rfl, e⟩
    · exact hne k e
  refine ⟨hc.tables.trans ht, fun k hk hs => ?_, fun k hk => ?_, fun k hk hst => ?_, fun i hi => ?_⟩
  · by_cases e : j = k
    · subst e
      exact hset hs
    · have hkl : k ∈ l := by simpa [Ne.symm e] using hk
      rw [hne k e]
      exact hc.settling k hkl hs
  · rw [same] at hk
    have harm : ¬ (j = k ∧ (s.group j).state = .settling) := by
      rintro ⟨rfl, e⟩
      obtain ⟨_, _, _, ha, _⟩ := hk
      rw [e] at ha
      cases ha
    have agree := hc.started k hk
    exact ⟨(keep k harm).trans agree.group, fun i hi => (hsl i).trans (agree.slot i hi)⟩
  · rw [same] at hst
    rw [keep k fun e => hk ⟨by simp [e.1], e.1 ▸ e.2⟩]
    exact hc.group k (fun e => hk ⟨by simp [e.1], e.2⟩) hst
  · rw [hsl]
    exact hc.slot i fun k hk => hi k ((same k).2 hk)

/-- Counting leaves the member sets. -/
theorem members (hc : s.Counted t l) (k : GroupId) : (t.group k).members = (s.group k).members := by
  by_cases hst : s.StartedBy l k
  · rw [(hc.started k hst).group]
    exact (s.startMove_work k).members k
  · by_cases hset : k ∈ l ∧ (s.group k).state = .settling
    · rw [hc.settling k hset.1 hset.2]
      exact (s.settleRound_work k).members k
    · rw [hc.group k hset hst]

/-- A group that waits for the next one has not been touched: neither its record nor its members. -/
theorem agree (hs : s.MembersApart) (hc : s.Counted t l) (hj : j ∉ l) (hk : s.Chained j k) : s.AgreeOn t k := by
  have hn : ¬ s.StartedBy l k := fun ⟨j', hj', _, h'⟩ => hj (chained_unique hk h' ▸ hj')
  refine ⟨hc.group k (fun e => ?_) hn, fun i hi => hc.slot i fun k' hk' hi' => ?_⟩
  · have := hk.1.symm.trans e.2
    cases this
  · exact hn (hs i k k' hi hi' ▸ hk')

/-- A group that waits for the next one after the count waited for it before. -/
theorem chained (hs : s.MembersApart) (hc : s.Counted t l) (hj : j ∉ l) (hk : t.Chained j k) : s.Chained j k := by
  obtain ⟨harm, hsrc⟩ := hk
  by_cases hst : s.StartedBy l k
  · have hg := (hc.started k hst).group
    obtain ⟨j', hj', hlast, h'⟩ := hst
    rcases s.startMove_awaits k with ⟨hq, -⟩ | e
    · rw [hg, hq] at hsrc
      have e := hsrc.symm.trans h'.2
      have e : j = j' := by simpa using e
      exact absurd (e ▸ hj') hj
    · rw [e] at hg
      exact ⟨hg ▸ harm, hg ▸ hsrc⟩
  · by_cases hset : k ∈ l ∧ (s.group k).state = .settling
    · exfalso
      rw [hc.settling k hset.1 hset.2] at harm
      by_cases hr : (s.group k).settleRemaining ≤ 1
      · rw [State.group_settleRound_last hs ⟨hset.2, hr⟩] at harm
        cases harm
      · rw [State.settleRound_count hset.2 hr, State.group_withGroup_self] at harm
        have := harm.symm.trans hset.2
        cases this
    · have hg := hc.group k hset hst
      exact ⟨hg ▸ harm, hg ▸ hsrc⟩

/-- A group that counts its last round is idle, and starts the groups that wait for it. -/
theorem last (hs : s.MembersApart) (hc : s.Counted t l) (hj : j ∉ l) (hl : s.LastRound j) :
    s.Counted ((t.withGroup j (s.group j).settled).startAll (.after j)) (l ++ [j]) := by
  have hgj : t.group j = s.group j := hc.next_group hj hl.1
  have hne : ∀ {k}, s.Chained j k → j ≠ k := fun h e => by
    subst e
    have := h.1.symm.trans hl.1
    cases this
  have hmem : ∀ k, ((t.withGroup j (s.group j).settled).group k).members = (s.group k).members := fun k => by
    rw [State.group_withGroup]
    split
    · next e => subst e; rfl
    · exact hc.members k
  have apart : (t.withGroup j (s.group j).settled).MembersApart := hs.of_members hmem
  have hu : ∀ {k}, j ≠ k → (t.withGroup j (s.group j).settled).group k = t.group k := fun h => by
    rw [State.group_withGroup, if_neg h]
  have agreed : ∀ {k}, s.Chained j k → s.AgreeOn (t.withGroup j (s.group j).settled) k := fun h =>
    ⟨(hu (hne h)).trans (hc.agree hs hj h).group, (hc.agree hs hj h).slot⟩
  have test : ∀ {k}, (t.withGroup j (s.group j).settled).Chained j k ↔ s.Chained j k := by
    intro k
    refine ⟨fun h => ?_, fun h => ?_⟩
    · have e : j ≠ k := fun e => by
        subst e
        have := h.1
        rw [State.group_withGroup_self] at this
        cases this
      refine hc.chained hs hj ?_
      unfold State.Chained at h
      rwa [hu e] at h
    · unfold State.Chained
      rw [(agreed h).group]
      exact h
  have acted := State.startAll_actedOn apart (.after j)
  have htab := State.startAll_tables (t.withGroup j (s.group j).settled) (.after j)
  have fresh : (t.withGroup j (s.group j).settled).group j = (s.group j).settled := State.group_withGroup_self ..
  have hslot : ∀ i, (t.withGroup j (s.group j).settled).slot i = t.slot i := fun _ => rfl
  have ht : s.TablesOnly (t.withGroup j (s.group j).settled) := hc.tables.trans (.modGroup t j fun _ => (s.group j).settled)
  generalize t.withGroup j (s.group j).settled = u at *
  generalize u.startAll (.after j) = v at *
  have untouched : ∀ {k}, ¬ s.Chained j k → v.group k = u.group k := fun h => acted.group_not fun e => h (test.1 e)
  refine ⟨ht.trans htab, fun k hk hset => ?_, fun k hk => ?_, fun k hk hst => ?_, fun i hi => ?_⟩
  · rw [untouched fun e => by have := e.1.symm.trans hset; cases this]
    by_cases e : j = k
    · subst e
      rw [fresh, State.group_settleRound_last hs hl]
    · rw [hu e]
      exact hc.settling k (by simpa [Ne.symm e] using hk) hset
  · rcases (startedBy_append ..).1 hk with hk | ⟨-, hk⟩
    · have hno : ¬ s.Chained j k := fun h => by
        obtain ⟨j', hj', -, h'⟩ := hk
        exact hj (chained_unique h h' ▸ hj')
      have e : j ≠ k := fun e => by
        subst e
        obtain ⟨_, _, _, ha, _⟩ := hk
        have := ha.symm.trans hl.1
        cases this
      have before := hc.started k hk
      refine ⟨(untouched hno).trans ((hu e).trans before.group), fun i hi => ?_⟩
      rw [acted.slot_not, hslot]
      · exact before.slot i hi
      · intro k' hk' hi'
        rw [(s.startMove_work k).members k] at hi
        rw [hmem] at hi'
        exact hno (hs i k k' hi hi' ▸ test.1 hk')
    · have after := (startMove_onGroup k).congr s u (agreed hk)
      refine ⟨(acted.group (test.2 hk)).trans after.group, fun i hi => ?_⟩
      rw [acted.slot (test.2 hk)]
      · exact after.slot i hi
      · rwa [hmem, ← (s.startMove_work k).members k]
  · have e : j ≠ k := fun e => hk ⟨by simp [e], e ▸ hl.1⟩
    rw [startedBy_append, not_or] at hst
    rw [untouched fun h => hst.2 ⟨hl, h⟩, hu e]
    exact hc.group k (fun h => hk ⟨by simp [h.1], h.2⟩) hst.1
  · rw [acted.slot_not, hslot]
    · exact hc.slot i fun k hk => hi k ((startedBy_append ..).2 (.inl hk))
    · intro k hk
      rw [hmem]
      exact hi k ((startedBy_append ..).2 (.inr ⟨hl, test.1 hk⟩))

/-- The next group counts the round. -/
theorem step (hs : s.MembersApart) (hc : s.Counted t l) (hj : j ∉ l) : s.Counted (t.settleRound j) (l ++ [j]) := by
  by_cases hset : (s.group j).state = .settling
  · have hgj := hc.next_group hj hset
    by_cases hr : (s.group j).settleRemaining ≤ 1
    · rw [State.settleRound_last (hgj ▸ hset) (hgj ▸ hr), hgj]
      exact hc.last hs hj ⟨hset, hr⟩
    · rw [State.settleRound_count (hgj ▸ hset) (hgj ▸ hr), hgj]
      refine hc.alone (fun h => hr h.2) (.modGroup t j fun _ => _) (fun _ => rfl) (fun k h => ?_) (fun _ => ?_)
        fun h => absurd hset h
      · rw [State.group_withGroup, if_neg h]
      · rw [State.settleRound_count hset hr, State.group_withGroup_self, State.group_withGroup_self]
  · rw [State.settleRound_ne (hc.next_state hj hset)]
    exact hc.alone (fun h => hset h.1) (.refl t) (fun _ => rfl) (fun _ _ => rfl) (fun h => absurd h hset) fun _ => rfl

theorem all (hs : s.MembersApart) {l : List GroupId} (hl : l.Nodup) : s.Counted (l.foldl State.settleRound s) l := by
  induction l using List.reverseRecOn with
  | nil => exact .nil s
  | append_singleton l j ih =>
    obtain ⟨hl1, -, hl2⟩ := List.nodup_append.1 hl
    rw [List.foldl_append, List.foldl_cons, List.foldl_nil]
    exact (ih hl1).step hs fun h => hl2 j h j (by simp) rfl

end State.Counted

/-- All groups count a round: each settling one does, and the groups that wait for the last count of another start. -/
theorem State.settleRounds_counted (hs : s.MembersApart) : s.Counted s.settleRounds (List.finRange 8) :=
  .all hs (List.nodup_finRange 8)

/-- A group is started by the round's end exactly where it waits for a group that counts its last round (R46, R84). -/
theorem State.startedBy_finRange (s : State) (k : GroupId) : s.StartedBy (List.finRange 8) k ↔
    (s.group k).state = .armed ∧ ∃ j, (s.group j).state = .settling ∧ (s.group j).settleRemaining ≤ 1 ∧
      (s.group k).queue.head?.map (·.source) = some (.after j) := by
  simp only [State.StartedBy, List.mem_finRange, true_and, State.LastRound, State.Chained]
  exact ⟨fun ⟨j, ⟨h1, h2⟩, h3, h4⟩ => ⟨h3, j, h1, h2, h4⟩, fun ⟨h3, j, h1, h2, h4⟩ => ⟨j, ⟨h1, h2⟩, h3, h4⟩⟩

/-- Settles O60: the end of a poll through `State.endPoll_eq`, and the count of all groups through `State.Counted`. -/
theorem roundCompletionSettles : Obligations.RoundCompletionSettles := by
  refine ⟨fun s i rest => ?_, fun s => ⟨s.fastCondition_iff, fun hr hf => ?_, fun h => ?_⟩,
    fun s j hm => State.startAll_actedOn hm.apart (.after j), fun s hm => ?_,
    fun s k => ⟨State.settleRound_ne, fun h hr => State.settleRound_count h (by omega), fun h hr =>
      State.settleRound_last h (by omega)⟩⟩
  · have run := s.endPoll_eq i rest
    refine ⟨fun ⟨j, hj, hij⟩ => run.trans (if_neg fun h => absurd (h.2 j hj) (not_le.2 hij)), fun hl =>
      ⟨fun he => run.trans (if_pos ⟨he, hl⟩), fun he => run.trans (if_neg fun h => he h.1)⟩⟩
  · rw [State.repace_eq, if_pos ⟨hr, hf⟩]
  · exact s.repace_of_paced fun hr => h.resolve_left fun hn => hn hr
  · have counted := s.settleRounds_counted hm.apart
    have members : ∀ k, ((s.startMove k).group k).members = (s.group k).members := fun k => (s.startMove_work k).members k
    simp only [← State.startedBy_finRange]
    refine ⟨counted.tables.eq, fun k => ⟨counted.settling k (List.mem_finRange k), fun h => (counted.started k h).group,
      fun hn hs => counted.group k (fun e => hn e.2) hs⟩, fun i => ⟨fun k h hi => ?_, counted.slot i⟩⟩
    exact (counted.started k h).slot i (members k ▸ hi)

end Sys2Proof.Machine

/-! ## A step on an empty queue -/

namespace Sys2Proof.Machine

/-! ### The frame that DLC begins (R144, R146, R155) -/

/-- The line lets DLC begin a frame: it is quiet, and no poll is open. -/
def Link.Still (l : Link) : Prop := l.poll = none ∧ l.line = .quiet

/-- An owed HALT_ALL begins now (R155). -/
def Link.HaltDue (l : Link) : Prop := l.Still ∧ l.haltOwed = true ∧ l.lineGap = 0

/-- The next poll of a round begins now (R144, R149). -/
def Link.PollDue (l : Link) : Prop :=
  l.Still ∧ l.haltOwed = false ∧ l.round = .inRound ∧ l.gap = 0 ∧ ∃ j ∈ l.pollList, ∀ m ∈ l.lastPolled, m < j

/-- The awaited round starts now (R146, R159). -/
def Link.RoundDue (l : Link) (now : Nat) : Prop :=
  l.Still ∧ l.haltOwed = false ∧ l.gap = 0 ∧
    (l.round = .between .fast ∨ l.round = .between .slow ∧ ∀ start ∈ l.roundStart, start + l.idleInterval * 1000 ≤ now)

/-- A listed slot is left to poll. -/
theorem Link.nextSlot_isSome (l : Link) :
    l.nextSlot.isSome = true ↔ ∃ j ∈ l.pollList, ∀ m ∈ l.lastPolled, m < j := by
  rw [Option.isSome_iff_ne_none, Ne, Link.nextSlot_none]
  push Not
  rfl

theorem Link.roundDue_iff (l : Link) (now : Nat) : l.roundDue now = true ↔
    l.round = .between .fast ∨ l.round = .between .slow ∧ ∀ start ∈ l.roundStart, start + l.idleInterval * 1000 ≤ now := by
  unfold Link.roundDue
  cases l.round with
  | between pace => cases pace <;> cases l.roundStart <;> simp
  | stopped => simp
  | inRound => simp

/-- The rows of the frame that is due. -/
theorem Link.mem_frameDue (l : Link) (now : Nat) (c : Instr) : c ∈ l.frameDue now ↔
    c = .haltAll ∧ l.HaltDue ∨ c = .poll ∧ l.PollDue ∨ c = .roundStart ∧ l.RoundDue now := by
  have still : (l.poll.isNone && l.line == .quiet) = true ↔ l.Still := by simp [Link.Still]
  unfold Link.frameDue Link.HaltDue Link.PollDue Link.RoundDue
  rw [← Link.nextSlot_isSome, ← Link.roundDue_iff, ← still]
  by_cases hs : (l.poll.isNone && l.line == .quiet) = true
  · rw [if_pos hs]
    simp only [hs, true_and]
    cases l.haltOwed with
    | true => simp [and_comm]
    | false =>
      cases hr : l.round with
      | stopped => simp [Link.roundDue, hr]
      | inRound => simp [Link.roundDue, hr, and_comm]
      | between pace => simp [and_comm]
  · rw [if_neg hs]
    simp [hs]

/-- A frame that is due is the one row of its moment. -/
theorem Link.frameDue_eq {l : Link} {now : Nat} {c : Instr} (h : c ∈ l.frameDue now) : l.frameDue now = [c] := by
  rcases l.frameDue_cases now with e | e | e | e <;> rw [e] at h ⊢ <;> simp_all

/-- No frame is due. -/
theorem Link.frameDue_nil {l : Link} {now : Nat} (h1 : ¬ l.HaltDue) (h2 : ¬ l.PollDue) (h3 : ¬ l.RoundDue now) :
    l.frameDue now = [] := by
  refine List.eq_nil_iff_forall_not_mem.2 fun c hc => ?_
  rw [Link.mem_frameDue] at hc
  simp only [h1, h2, h3, and_false, or_self] at hc

/-! ### The rows of a microsecond (R30, R132, R149) -/

theorem Group.mem_due (g : Group) (k : GroupId) (c : Instr) : c ∈ g.due k ↔
    g.stepTimer = some 1 ∧ c = .stepTimerExpiry k ∨ g.holdTimer = some 1 ∧ c = .holdTimerExpiry k ∨
      g.landingTimer = some 1 ∧ c = .landingTimerExpiry k ∨ g.stopTimer = some 1 ∧ c = .stopTimerExpiry k := by
  simp only [Group.due, List.mem_append, Machine.mem_due, runsOut_iff, or_assoc]

/-- The frame being sent ends, or the response timer runs out. -/
theorem Link.mem_exchangeDue (l : Link) (c : Instr) : c ∈ l.exchangeDue ↔
    c = .endOfPoll ∧ (∃ p bytes, l.poll = some p ∧ p.stage = .sending ∧ l.line = .sendingPoll bytes 1) ∨
      c = .responseTimerExpiry ∧
        ∃ p, l.poll = some p ∧ p.stage = .awaiting 1 ∧ ∀ bytes left, l.line ≠ .sendingPoll bytes left := by
  unfold Link.exchangeDue
  cases l.poll with
  | none => simp
  | some p =>
    cases l.line with
    | sendingPoll bytes left => simp [and_comm]
    | _ => simp [and_comm]

/-- The rows that come due with a microsecond. -/
theorem State.mem_dueRows (s : State) (c : Instr) : c ∈ s.dueRows ↔
    (∃ k, c ∈ (s.group k).due k) ∨ (s.safety.jogTimer = some 1 ∧ c = .jogHoldTimerExpiry) ∨ c ∈ s.link.exchangeDue ∨
      c ∈ s.link.tick.frameDue (s.now + 1) := by
  simp only [State.dueRows, List.mem_append, List.mem_flatMap, List.mem_finRange, true_and, Machine.mem_due, runsOut_iff,
    or_assoc]

/-- The line and the gaps after a microsecond (R144, R149, R155). -/
theorem Link.tick_eq (l : Link) :
    let gapAfter (gap : Nat) : Nat := match l.line with
      | .quiet => gap - 1
      | .sendingHalt left | .cutPoll _ left => if left ≤ 1 then 30 else gap
      | .sendingPoll _ _ | .discarding => gap
    l.tick = { l with
      poll := l.poll.map fun p => match p.stage with
        | .awaiting left => { p with stage := .awaiting (left - 1) }
        | .sending | .receiving _ => p
      line := match l.line with
        | .sendingPoll bytes left => .sendingPoll bytes (left - 1)
        | .sendingHalt left => if left ≤ 1 then .quiet else .sendingHalt (left - 1)
        | .cutPoll b left => if left ≤ 1 then .quiet else .cutPoll b (left - 1)
        | .quiet => .quiet
        | .discarding => .discarding
      gap := gapAfter l.gap
      lineGap := gapAfter l.lineGap } := by
  have polls : PollInFlight.tick = fun p => match p.stage with
      | .awaiting left => { p with stage := .awaiting (left - 1) }
      | .sending | .receiving _ => p := by
    funext p
    unfold PollInFlight.tick
    cases p.stage <;> rfl
  dsimp only
  rw [← polls]
  unfold Link.tick Link.endFrame Link.endExchange Config.frameGap
  cases hl : l.line with
  | sendingHalt left => by_cases h : left ≤ 1 <;> simp [h]
  | cutPoll b left => by_cases h : left ≤ 1 <;> simp [h]
  | _ => simp

/-! ### The step -/

/-- What waits within the moment is taken; the queue stays empty. -/
theorem State.pending_endMoment {s : State} (h : s.pending = []) : s.endMoment.pending = [] :=
  (s.deliverWaiting.deliverEvents_spec.2.2.2.2.pending.trans s.deliverWaiting_spec.2.2.2.2.1).trans h

/-- A frame that is due begins, and no time passes. -/
theorem step_frame {s : State} {c : Instr} (hp : s.pending = [])
    (h : c ∈ s.endMoment.link.frameDue s.endMoment.now) : step s = .next { s.endMoment with pending := [c] } := by
  rw [step, hp]
  dsimp only
  rw [State.tick_frame (Link.frameDue_eq h), State.pending_endMoment hp]
  rfl

/-- With no frame due, one microsecond passes. -/
theorem step_count {s : State} (hp : s.pending = []) (h : s.endMoment.link.frameDue s.endMoment.now = []) :
    step s = .next s.endMoment.count := by
  rw [step, hp]
  dsimp only
  rw [State.tick_count h]

/-- On an empty queue, the rows that come due with a microsecond are the ones that wait after it (log 3). -/
theorem State.count_pending_perm {s : State} (h : s.pending = []) : s.count.pending.Perm s.dueRows := by
  have queue : s.count.pending = arrange s.freeCount s.dueRows := by
    show s.pending ++ _ = _
    rw [h, List.nil_append]
  rw [queue]
  exact arrange_perm ..

/-- Settles O2: a due frame is the step, and otherwise the count of a microsecond is, whose rows are `State.dueRows`. -/
theorem idleStepTicksClock : Obligations.IdleStepTicksClock := by
  intro s hp u l free haltDue pollDue roundDue gapAfter
  have frame := l.mem_frameDue u.now
  refine ⟨fun hw he => ?_, fun h => step_frame hp ((frame _).2 (.inl ⟨rfl, h⟩)),
    fun h => step_frame hp ((frame _).2 (.inr (.inl ⟨rfl, h⟩))),
    fun h => step_frame hp ((frame _).2 (.inr (.inr ⟨rfl, h⟩))), fun h1 h2 h3 => ?_⟩
  · have hu : u = s.deliverEvents := congrArg State.deliverEvents (State.deliverWaiting_none hw)
    rw [hu, State.deliverEvents_none he]
  · have perm : u.count.pending.Perm u.dueRows := State.count_pending_perm (State.pending_endMoment hp)
    have row (c : Instr) := (perm.mem_iff (a := c)).trans (u.mem_dueRows c)
    simp only [Group.mem_due, Link.mem_exchangeDue, Link.mem_frameDue] at row
    refine ⟨u.count, step_count hp (Link.frameDue_nil h1 h2 h3), rfl, rfl, rfl, s.deliverWaiting.deliverEvents_spec.2.2.2.1,
      rfl, rfl, u.group_count, l.tick_eq, perm, fun k => ⟨?_, ?_, ?_, ?_⟩, ?_, ?_, ?_, ?_, ?_, ?_⟩
    case refine_6 | refine_7 | refine_8 | refine_9 | refine_10 => exact (row _).trans (by simp; rfl)
    all_goals exact (row _).trans (by simp)

end Sys2Proof.Machine

/-! ## A step of the reference profile -/

namespace Sys2Proof.Machine

/-! ### The test of a staged target (R63 to R65) -/

section Staging
variable {g : Group} {dir : Travel} {reference : Int} {target : Nat}

/-- With nothing staged the group steps as it is (R65). -/
theorem Group.applyStaging_none (h : g.stagedTarget = none) (dir : Travel) (reference : Int) (slowest : Option Nat) :
    g.applyStaging dir reference slowest = g := by
  rw [Group.applyStaging, h]

/-- A staged target ahead of the reference is latched (R63). -/
theorem Group.applyStaging_ahead (h : g.stagedTarget = some target)
    (ha : strictlyAhead dir ((target : Int) * 1000) reference = true) (slowest : Option Nat) :
    g.applyStaging dir reference slowest = g.latch target slowest := by
  simp only [Group.applyStaging, h, if_pos ha]

/-- A staged target that is not ahead of the reference is discarded late (R64). -/
theorem Group.applyStaging_late (h : g.stagedTarget = some target)
    (ha : ¬ strictlyAhead dir ((target : Int) * 1000) reference = true) (slowest : Option Nat) :
    g.applyStaging dir reference slowest = g.discardLate := by
  simp only [Group.applyStaging, h, if_neg ha]

/-- The latch keeps the step timer, the direction and the reference, and empties the staging (R63). -/
theorem Group.latch_frame (g : Group) (target : Nat) (slowest : Option Nat) :
    (g.latch target slowest).stepTimer = g.stepTimer ∧ (g.latch target slowest).direction = g.direction ∧
      (g.latch target slowest).reference = g.reference ∧ (g.latch target slowest).stagedTarget = none := by
  cases hv : g.stagedSpeed <;> simp [Group.latch, hv]

/-- So does the test of a staged target, whatever its outcome (R63 to R65). -/
theorem Group.applyStaging_frame (g : Group) (dir : Travel) (reference : Int) (slowest : Option Nat) :
    (g.applyStaging dir reference slowest).stepTimer = g.stepTimer ∧
      (g.applyStaging dir reference slowest).direction = g.direction ∧
      (g.applyStaging dir reference slowest).reference = g.reference ∧
      (g.applyStaging dir reference slowest).stagedTarget = none := by
  cases ht : g.stagedTarget with
  | none => rw [Group.applyStaging_none ht]; exact ⟨rfl, rfl, rfl, ht⟩
  | some target =>
    by_cases ha : strictlyAhead dir ((target : Int) * 1000) reference = true
    · rw [Group.applyStaging_ahead ht ha]; exact g.latch_frame ..
    · rw [Group.applyStaging_late ht ha]; exact ⟨rfl, rfl, rfl, rfl⟩

end Staging

/-! ### The step of one group (R57 to R61) -/

section Step
variable {s : State} {k : GroupId} {g : Group} {dir : Travel} {reference : Int}

/-- Where nothing is staged, a profile step is the advance of the reference (R57). -/
theorem Group.profileStep_unstaged {cue : Cue} {cruise : Nat} (hd : g.direction = some dir)
    (hr : g.reference = some reference) (hq : g.head = some cue) (hc : g.cruise = some cruise)
    (ht : g.stagedTarget = none) (slowest : Option Nat) :
    g.profileStep slowest = some (g.advanceStep dir reference cue cruise) := by
  simp only [Group.profileStep, hd, hr, Group.applyStaging_none ht, hq, hc]

/-- The test of a staged target comes first in a profile step, and only once (R57, R63). -/
theorem Group.profileStep_applyStaging (hd : g.direction = some dir) (hr : g.reference = some reference)
    (slowest slowest' : Option Nat) :
    (g.applyStaging dir reference slowest).profileStep slowest' = g.profileStep slowest := by
  obtain ⟨-, direction, reference', staged⟩ := g.applyStaging_frame dir reference slowest
  simp only [Group.profileStep, direction.trans hd, reference'.trans hr, Group.applyStaging_none staged, hd, hr]

/-- Of two writes of one group record the later stays. -/
theorem State.withGroup_withGroup_self (s : State) (k : GroupId) (g : Group) :
    (s.withGroup k g).withGroup k = s.withGroup k := by
  funext g'
  simp [State.withGroup]

/-- A step expiry writes the profile step of its group (R57). -/
theorem State.takeStepExpiry_running (ht : (s.group k).stepTimer ≠ none) :
    s.takeStepExpiry k = ((s.group k).profileStep (s.minRatedSpeed k)).map (s.withGroup k) :=
  if_pos (Option.isSome_iff_ne_none.2 ht)

/-- A step of a group with nothing staged is the advance of its reference (R57). -/
theorem exec_stepTimerExpiry_unstaged {cue : Cue} {cruise : Nat} (ht : (s.group k).stepTimer ≠ none)
    (hd : (s.group k).direction = some dir) (hr : (s.group k).reference = some reference)
    (hq : (s.group k).head = some cue) (hc : (s.group k).cruise = some cruise) (hs : (s.group k).stagedTarget = none) :
    exec (.stepTimerExpiry k) s =
      .next (State.repace (s.withGroup k ((s.group k).advanceStep dir reference cue cruise))) := by
  have taken := State.takeStepExpiry_running ht
  rw [Group.profileStep_unstaged hd hr hq hc hs] at taken
  simp only [exec, execStepTimerExpiry, taken, Option.map_some, complete]

/-- A step of a group is the step after the test of its staged target (R57, R63 to R65). -/
theorem exec_stepTimerExpiry_applyStaging (ht : (s.group k).stepTimer ≠ none)
    (hd : (s.group k).direction = some dir) (hr : (s.group k).reference = some reference) :
    exec (.stepTimerExpiry k) s =
      exec (.stepTimerExpiry k)
        (s.withGroup k ((s.group k).applyStaging dir reference (s.minRatedSpeed k))) := by
  have running := ((s.group k).applyStaging_frame dir reference (s.minRatedSpeed k)).1
  have taken : s.takeStepExpiry k =
      (s.withGroup k ((s.group k).applyStaging dir reference (s.minRatedSpeed k))).takeStepExpiry k := by
    rw [State.takeStepExpiry_running ht, State.takeStepExpiry_running (by simpa [running] using ht)]
    rw [State.group_withGroup_self, Group.profileStep_applyStaging hd hr, State.withGroup_withGroup_self]
  simp only [exec, execStepTimerExpiry, taken]

end Step

/-- Settles O47: with nothing staged the step is `Group.advanceStep`, whose test of the distance parts the arrival from the
move. -/
theorem stepAdvancesReference : Obligations.StepAdvancesReference := by
  intro s k dir reference cue rest cruise ht hd hr hq hc hs g target remaining braking floor change speed total
  have head : g.head = some cue := by simp [Group.head, g, hq]
  have run := exec_stepTimerExpiry_unstaged ht hd hr head hc hs
  have advanced : g.advanceStep dir reference cue cruise = if remaining ≤ total / 1000 then _ else _ := rfl
  refine ⟨fun arrives => ?_, fun short => ?_⟩
  · rw [run, advanced, if_pos arrives]
  · rw [run, advanced, if_neg (Nat.not_le.2 short)]
    rfl

/-- Settles O48: the three outcomes of the test of a staged target, each before the step. -/
theorem stepLatchesOrDiscards : Obligations.StepLatchesOrDiscards := by
  intro s k dir reference cue rest target ht hd hr hq hs g ahead latched
  have run := exec_stepTimerExpiry_applyStaging ht hd hr
  have ahead_iff : strictlyAhead dir ((target : Int) * 1000) reference = true ↔ ahead := strictlyAhead_iff ..
  refine ⟨fun ha hv => ?_, fun v slowest ha hv hm => ?_, fun ha => ?_⟩
  · rw [run, Group.applyStaging_ahead hs (ahead_iff.2 ha)]
    simp only [Group.latch, g, hv, hq, retargetHead, latched]
  · rw [run, Group.applyStaging_ahead hs (ahead_iff.2 ha), State.minRatedSpeed_eq hm]
    simp only [Group.latch, g, hv, hq, retargetHead, latched, Option.some.injEq, eq_comm]
  · rw [run, Group.applyStaging_late hs (mt ahead_iff.1 ha)]
    rfl

end Sys2Proof.Machine

/-! ## An assertion of ESTOP_N: SLB's own part, and the deliveries -/

namespace Sys2Proof.Machine

variable {s : State}

/-! ### SLB's own part (R78, R124, R134) -/

/-- The lines and the power after SLB's own part: the level and ESTOP_SEEN stand, the power goes, and a jog has ended. -/
def Safety.asserted (f : Safety) : Safety :=
  { f with
    estopAsserted := true
    permit := false
    estopSeen := true
    jogSlot := none
    jogTimer := if f.jogSlot = none then f.jogTimer else none
    lastJogEnd := match f.jogSlot with
      | some i => some ⟨i, .estop⟩
      | none => f.lastJogEnd }

theorem State.slot_cutPower (s : State) (i : Slot) :
    s.cutPower.slot i = { s.slot i with record := (s.record i).map Hoist.cutPower } := by
  rw [State.cutPower, State.slot_mapSlots]
  rfl

/-- The lines after SLB's own part, whether or not a hoist jogs. -/
theorem State.safety_assertEstop_eq (s : State) : s.assertEstop.safety = s.safety.asserted := by
  unfold State.assertEstop
  cases hj : s.safety.jogSlot with
  | none => simp [State.endJog, hj, Safety.asserted]
  | some i =>
    rw [State.safety_endJog (i := i) (by simpa using hj)]
    simp [Safety.asserted, hj]

/-- SLB's own part of an assertion writes the slot table and the lines, and nothing else. -/
theorem State.assertEstop_eq (s : State) :
    s.assertEstop = { s with slots := s.assertEstop.slots, safety := s.safety.asserted } := by
  have fields := State.endJog_fields (State.cutPower { s with
    safety := { s.safety with estopAsserted := true, permit := false, estopSeen := true } }) .estop
  rw [← State.assertEstop] at fields
  rw [← s.safety_assertEstop_eq]
  generalize s.assertEstop = t at fields ⊢
  simpa [State.cutPower] using fields

/-- A slot after SLB's own part: its demand is cut, and the jog in it has ended with the slot's attention set. -/
theorem State.slot_assertEstop (s : State) (i : Slot) :
    s.assertEstop.slot i =
      if s.safety.jogSlot = some i then
        { s.slot i with attention := true, record := ((s.record i).map Hoist.cutPower).map Hoist.endJog }
      else { s.slot i with record := (s.record i).map Hoist.cutPower } := by
  rw [State.assertEstop, State.slot_endJog, State.slot_cutPower, State.record_cutPower, State.safety_cutPower]
  rfl

/-- The end of a jog of a record whose demand has been cut stops it, and its jog fields go. -/
theorem Hoist.endJog_cutPower (h : Hoist) : h.cutPower.endJog =
    if h.cutPower.state = .jogging then
      { h.cutPower with state := .stopping, jogStart := none, jogDistance := none }
    else h.cutPower := by
  unfold Hoist.endJog
  split
  · next hs =>
    have quiet : h.cutPower = h.quiet := if_pos (.inr (h.cutPower_fields.1 ▸ hs))
    rw [quiet]
    rfl
  · rfl

/-! ### The deliveries (R134, R185, logs 4 and 26) -/

/-- DLC and GENG take the assertion, in one order or the other. -/
theorem State.takeDelivery_eq (s : State) :
    s.takeDelivery =
      { (if s.linkFirst then s.estopLink.estopGroups else s.estopGroups.estopLink) with freeCount := s.freeCount + 1 } :=
  rfl

/-- A reply is arriving exactly while the poll in flight receives one. -/
theorem State.replyArriving_iff (s : State) :
    s.replyArriving = true ↔ ∃ p early, s.link.poll = some p ∧ p.stage = .receiving early := by
  unfold State.replyArriving
  cases s.link.poll with
  | none => simp
  | some p => cases hs : p.stage <;> simp [hs]

/-- A line that is low already has no assertion (log 5). -/
theorem State.takeEstopAssertion_low (h : s.safety.estopAsserted = true) : s.takeEstopAssertion = s := if_pos h

/-- An assertion is SLB's own part, then the deliveries, now or after the reply that is arriving (log 26). -/
theorem State.takeEstopAssertion_cases (h : s.safety.estopAsserted = false) :
    s.takeEstopAssertion = s.assertEstop.takeDelivery ∨
      s.assertEstop.replyArriving = true ∧ s.takeEstopAssertion =
        { s.assertEstop with
          safety := { s.assertEstop.safety with estopWaiting := true }, freeCount := s.assertEstop.freeCount + 1 } := by
  unfold State.takeEstopAssertion
  rw [if_neg (by simp [h])]
  dsimp only
  split
  · next hw => exact .inr ⟨(Bool.and_eq_true_iff.1 hw).1, rfl⟩
  · exact .inl rfl

/-- Settles O42: the state between is `State.assertEstop`, and what follows it is a delivery or a wait. -/
theorem estopAssertionCutsPower : Obligations.EstopAssertionCutsPower := by
  refine ⟨fun s hs => ?_, fun s hs => ⟨State.linkFirst { s with safety := { s.safety with estopWaiting := false } }, ?_⟩,
    fun s hs => ⟨s.assertEstop, s.assertEstop.linkFirst, ?_, s.assertEstop_eq, ?_, fun i => ?_⟩⟩
  · exact congrArg (fun t => Host.Outcome.next t.repace) (State.takeEstopAssertion_low hs)
  · rw [State.deliverWaiting, if_pos hs, State.takeDelivery_eq]
  · have count : s.assertEstop.freeCount = s.freeCount := by rw [s.assertEstop_eq]
    have link : s.assertEstop.link = s.link := s.assertEstop_fields.2.1
    have run : exec .estopAssertion s = .next s.takeEstopAssertion.repace := rfl
    rcases State.takeEstopAssertion_cases hs with now | ⟨arriving, waits⟩
    · exact .inl (by rw [run, now, State.takeDelivery_eq, count])
    · refine .inr ⟨?_, by rw [run, waits, count]⟩
      rw [← link]
      exact s.assertEstop.replyArriving_iff.1 arriving
  · rw [State.mainsEn, s.assertEstop_eq]
    rfl
  · intro cut
    have cut_eq : cut = (s.record i).map Hoist.cutPower := rfl
    rw [s.slot_assertEstop i, cut_eq, Option.map_map, Option.map_map]
    simp only [Function.comp_def, Hoist.endJog_cutPower]

end Sys2Proof.Machine

/-! ## The expiries of a group's hold, landing and stop timers -/

namespace Sys2Proof.Machine

variable {s : State} {k : GroupId} {i : Slot} {h : Hoist} {before later : List Slot}

/-! ### The taking of an expiry while the timer runs (R85, R114, R127) -/

theorem exec_holdTimerExpiry (s : State) (k : GroupId) :
    exec (.holdTimerExpiry k) s = .next (s.takeHoldExpiry k).repace := rfl

theorem exec_landingTimerExpiry (s : State) (k : GroupId) :
    exec (.landingTimerExpiry k) s = .next (s.takeLandingExpiry k).repace := rfl

theorem exec_stopTimerExpiry (s : State) (k : GroupId) :
    exec (.stopTimerExpiry k) s = .next (s.takeStopExpiry k).repace := rfl

theorem State.takeHoldExpiry_running (ht : (s.group k).holdTimer ≠ none) : s.takeHoldExpiry k = s.loseHold k :=
  if_pos (Option.isSome_iff_ne_none.2 ht)

theorem State.takeStopExpiry_running (ht : (s.group k).stopTimer ≠ none) : s.takeStopExpiry k = s.stopExpiry k :=
  if_pos (Option.isSome_iff_ne_none.2 ht)

/-- With a member that has not landed, nothing comes before the landing timer's expiry (R85). -/
theorem State.takeLandingExpiry_unlanded (hn : s.allLanded k ≠ true) (ht : (s.group k).landingTimer ≠ none) :
    s.takeLandingExpiry k = s.landingExpiry k := by
  unfold State.takeLandingExpiry
  rw [if_neg hn]
  exact if_pos (Option.isSome_iff_ne_none.2 ht)

/-- Where all members have landed, the landed event that waits comes first, and with the move over the expiry is not taken
(R87, log 27). -/
theorem State.takeLandingExpiry_landed (hl : s.allLanded k = true)
    (hn : (s.deliverEvents.group k).landingTimer = none) : s.takeLandingExpiry k = s.deliverEvents := by
  unfold State.takeLandingExpiry
  rw [if_pos hl]
  exact if_neg (by simp [hn])

/-! ### The member that an expiry names (R85, R114) -/

/-- The landing timer's expiry names the lowest member that has not landed, with its deviation (R85). -/
theorem State.landingExpiry_eq (hi : s.lowestMember k (fun h => !h.landed) = some i) (hr : s.record i = some h) :
    s.landingExpiry k = s.enterStopping k (.fault .landTime) (some i) h.deviation := by
  simp only [State.landingExpiry, hi, Option.bind_some, hr]

/-- The stop timer's expiry names the lowest member that still stops, where no first-fault record stands (R114). -/
theorem State.stopExpiry_eq (hi : s.lowestMember k (fun h => h.state == .stopping) = some i) :
    s.stopExpiry k = s.withGroup k { (s.group k).stopTimers with
      state := .faulted
      stopCause := if (s.group k).firstFault = none then some (.fault .stopTime) else (s.group k).stopCause
      firstFault := if (s.group k).firstFault = none then some ⟨.stopTime, some i, none, (s.group k).reference⟩
        else (s.group k).firstFault
      stopTime := true
      attention := true } := by
  rw [State.stopExpiry, hi, State.modGroup_eq]
  cases hf : (s.group k).firstFault <;> simp [Group.capture]

/-- A member that has not landed keeps the group from arriving (R82). -/
theorem State.not_allLanded (hm : i ∈ (s.group k).members) (hr : s.record i = some h) (hl : h.landed = false) :
    s.allLanded k ≠ true := by
  rw [Ne, State.allLanded_iff]
  intro all
  obtain ⟨r, hr', -, landed⟩ := all i hm
  cases hr.symm.trans hr'
  simp [hl] at landed

/-- Settles O49: each expiry is taken while its timer runs, and names the lowest member that its rule asks for. -/
theorem groupTimersExpire : Obligations.GroupTimersExpire := by
  intro s k g
  refine ⟨fun ht => ?_, fun before later i h ht hm hb hr hl => ?_, fun _ hall hn => ?_,
    fun before later i h ht hm hb hr hs => ?_⟩
  · rw [exec_holdTimerExpiry, State.takeHoldExpiry_running ht, State.loseHold, State.modGroup_eq]
  · have named : s.lowestMember k (fun h => !h.landed) = some i :=
      State.lowestMember_eq hm (fun j hj r hr => by simp [hb j hj r hr]) hr (by simp [hl])
    have waits := State.not_allLanded (hm ▸ by simp : i ∈ (s.group k).members) hr hl
    rw [exec_landingTimerExpiry, State.takeLandingExpiry_unlanded waits ht, State.landingExpiry_eq named hr]
  · rw [exec_landingTimerExpiry, State.takeLandingExpiry_landed ((s.allLanded_iff k).2 hall) hn]
  · have named : s.lowestMember k (fun h => h.state == .stopping) = some i :=
      State.lowestMember_eq hm (fun j hj r hr => by simpa using hb j hj r hr) hr (by simp [hs])
    rw [exec_stopTimerExpiry, State.takeStopExpiry_running ht, State.stopExpiry_eq named]
    rfl

end Sys2Proof.Machine

/-! ## The evaluation of a record: its checks, its tracking, and what it hands on -/

namespace Sys2Proof.Machine

variable {s : State} {i : Slot} {k : GroupId} {h r : Hoist} {g : Group} {dir : Travel} {mainsEn : Bool}

/-! ### The checks (R79, R80, R91 to R97, R105) -/

/-- COND_NODEFLT: a fault bit, and while the record moves a drive that is not ready (R105). -/
theorem Hoist.nodeFaulted_iff (h : Hoist) : h.nodeFaulted = true ↔ ∃ f ∈ h.nodeFlags,
    (f.getLsbD 3 = true ∨ f.getLsbD 2 = true ∨ f.getLsbD 1 = true) ∨ h.state = .moving ∧ f.getLsbD 0 = false := by
  unfold Hoist.nodeFaulted
  cases h.nodeFlags with
  | none => simp
  | some f => simp [nodeTrouble, driveReady, or_assoc]

/-- COND_OVERLOAD: over range, or above the overload threshold of a rated load (R91, R92). -/
theorem Hoist.overloaded_iff (h : Hoist) : h.overloaded = true ↔
    ∃ w ∈ h.load, w = 8191 ∨ ∃ rated ∈ h.ratedLoad, rated * h.overloadPct < w * 100 := by
  unfold Hoist.overloaded Config.loadOverrange
  cases h.load with
  | none => simp
  | some w => cases h.ratedLoad <;> simp [or_comm]

/-- COND_LIMIT of a hoist going up: its upper limit switch, or a height at its upper limit (R80). -/
theorem Hoist.atLimit_up (h : Hoist) : h.atLimit .up = true ↔
    (∃ f ∈ h.nodeFlags, f.getLsbD 5 = true) ∨ ∃ p ∈ h.height, h.upper * 10 ≤ p := by
  unfold Hoist.atLimit limUp
  cases h.nodeFlags <;> cases h.height <;> simp

/-- COND_LIMIT of a hoist going down (R80). -/
theorem Hoist.atLimit_down (h : Hoist) : h.atLimit .down = true ↔
    (∃ f ∈ h.nodeFlags, f.getLsbD 4 = true) ∨ ∃ p ∈ h.height, p ≤ h.lower * 10 := by
  unfold Hoist.atLimit limDown
  cases h.nodeFlags <;> cases h.height <;> simp

/-- COND_LOADSHIFT, against the baseline after the capture (R96). -/
theorem Hoist.loadShifted_iff (h : Hoist) : h.loadShifted = true ↔
    ∃ w ∈ h.load, ∃ b ∈ h.capturedBaseline, b * h.shiftPct < ((w : Int) - b).natAbs * 100 := by
  unfold Hoist.loadShifted
  cases h.load <;> cases h.capturedBaseline <;> simp

/-- COND_UNDERLOAD, of a group that moves down (R97). -/
theorem Hoist.underloaded_iff (h : Hoist) (dir : Travel) : h.underloaded dir = true ↔
    dir = .down ∧ ∃ w ∈ h.load, ∃ b ∈ h.capturedBaseline, w * 100 < b * h.underloadPct := by
  unfold Hoist.underloaded
  cases dir with
  | up => simp
  | down => cases h.load <;> cases h.capturedBaseline <;> simp

/-- The first evaluation of a move captures a load between 20 and 8190 as the baseline (R94). -/
theorem Hoist.capturedBaseline_eq (h : Hoist) : h.capturedBaseline =
    if h.deviation = none then h.load.elim h.baseline fun w => if 20 ≤ w ∧ w ≤ 8190 then some w else h.baseline
    else h.baseline := by
  have range (w : Nat) : (Config.minBaseline ≤ w ∧ w < Config.loadOverrange) ↔ 20 ≤ w ∧ w ≤ 8190 := by
    unfold Config.minBaseline Config.loadOverrange
    omega
  unfold Hoist.capturedBaseline
  cases h.deviation <;> cases h.load <;> simp [range]

/-! ### The conditions found (R71) -/

/-- A record at rest is evaluated for its node conditions and its overload (R71). -/
theorem Hoist.mem_evaluateAtRest (h : Hoist) (c : Cond) : c ∈ h.evaluateAtRest.found ↔
    c = .nodeFault ∧ h.nodeFaulted = true ∨ c = .overload ∧ h.overloaded = true := by
  cases c <;> simp [Hoist.evaluateAtRest]

/-- A jogging record is evaluated for its limit in the jog's direction as well (R71, R131). -/
theorem Hoist.mem_evaluateJog (h : Hoist) (c : Cond) : c ∈ h.evaluateJog.found ↔
    c = .nodeFault ∧ h.nodeFaulted = true ∨ c = .overload ∧ h.overloaded = true ∨
      c = .limit ∧ (h.direction = .up ∧ h.atLimit .up = true ∨ h.direction = .down ∧ h.atLimit .down = true) := by
  cases c with
  | limit => cases hd : h.direction <;> simp [Hoist.evaluateJog, Direction.travel, hd]
  | _ => simp [Hoist.evaluateJog]

/-- A moving member is evaluated for each condition of its own by that condition's check; the causes of a group, a loss and a
link error are none of them (R71). -/
theorem Hoist.mem_movingFindings (h : Hoist) (g : Group) (dir : Travel) (t : TrackResult) :
    let found := h.movingFindings g dir t
    (Cond.satHigh ∈ found ↔ t.demand.satHigh = true) ∧ (Cond.satLow ∈ found ↔ t.demand.satLow = true) ∧
      (Cond.dev ∈ found ↔ g.settings.levelTol * 1000 < t.deviation.natAbs) ∧
      (Cond.xdev ∈ found ↔ 2 * g.settings.levelTol * 1000 < t.deviation.natAbs) ∧
      (Cond.limit ∈ found ↔ h.atLimit dir = true) ∧ (Cond.nodeFault ∈ found ↔ h.nodeFaulted = true) ∧
      (Cond.overload ∈ found ↔ h.overloaded = true) ∧ (Cond.loadShift ∈ found ↔ h.loadShifted = true) ∧
      (Cond.underload ∈ found ↔ h.underloaded dir = true) ∧ Cond.estop ∉ found ∧ Cond.lost ∉ found ∧
      Cond.landTime ∉ found ∧ Cond.stopTime ∉ found ∧ Cond.linkErr ∉ found := by
  simp [Hoist.movingFindings]

/-- Outside HST_MOVING only the fault bits count (R105). -/
theorem Hoist.nodeFaulted_still (hs : h.state ≠ .moving) : h.nodeFaulted = true ↔
    ∃ f ∈ h.nodeFlags, f.getLsbD 3 = true ∨ f.getLsbD 2 = true ∨ f.getLsbD 1 = true := by
  simp only [h.nodeFaulted_iff, hs, false_and, or_false]

/-! ### The demand (R75 to R77) -/

/-- No speed wanted, no demand: low saturation while the reference moves (R76). -/
theorem demandOf_nonpos {v : Int} (hv : v ≤ 0) (rated vg : Nat) : demandOf v rated vg = ⟨0, false, decide (0 < vg)⟩ :=
  if_pos hv

/-- A wanted speed gives a demand within its range, and high saturation above it (R76). -/
theorem demandOf_pos {v : Int} (hv : 0 < v) (rated vg : Nat) :
    let quotient := (v.toNat + rated / 2) / rated
    demandOf v rated vg = ⟨intoRange 20 1000 quotient, decide (1000 < quotient), false⟩ := by
  intro quotient
  rw [demandOf, if_neg (by omega)]
  dsimp only
  unfold Config.maxDemand Config.minDemand intoRange
  split
  · next hq => simp [quotient, hq]; omega
  · next hq => simp [quotient, hq]; omega

/-- A demand in range is above 0. -/
theorem intoRange_demand_pos (q : Nat) : intoRange 20 1000 q ≠ 0 := by
  unfold intoRange
  omega

/-! ### The tracking of a moving member (R73 to R77) -/

/-- The speed that the tracking wants of a member (R75). -/
def Hoist.wanted (h : Hoist) (g : Group) (dir : Travel) (p : Nat) (reference : Int) : Int :=
  (g.refSpeed : Int) - correctionOf (leadOf dir (deviationOf p reference h.trim)) g.settings.gain

section Track
variable {p rated : Nat} {reference : Int}

/-- A member lands within the landing tolerance of an arrived reference, and stays landed (R74). -/
theorem Hoist.track_landed : (h.track g dir mainsEn p rated reference).landed = true ↔ h.landed = true ∨
    g.arrived = true ∧ (deviationOf p reference h.trim).natAbs ≤ g.settings.landingTol * 1000 := by
  simp [Hoist.track]

/-- A landed member, and one without power, has demand 0 and no saturation (R77, R78). -/
theorem Hoist.track_undriven
    (hd : ¬ ((h.track g dir mainsEn p rated reference).landed ≠ true ∧ mainsEn = true)) :
    (h.track g dir mainsEn p rated reference).demand = ⟨0, false, false⟩ := by
  refine if_pos ?_
  rw [Bool.or_eq_true, Bool.not_eq_true']
  rw [not_and_or, not_not, Bool.not_eq_true] at hd
  exact hd

/-- A member that is driven demands the speed that its tracking wants (R76). -/
theorem Hoist.track_driven (hd : (h.track g dir mainsEn p rated reference).landed ≠ true ∧ mainsEn = true) :
    (h.track g dir mainsEn p rated reference).demand = demandOf (h.wanted g dir p reference) rated g.refSpeed := by
  refine if_neg ?_
  rw [Bool.or_eq_true, Bool.not_eq_true']
  rintro (hl | hm)
  · exact hd.1 hl
  · rw [hd.2] at hm
    cases hm

/-- The demand of a member: none where it is not driven, and otherwise by the wanted speed (R76 to R78). -/
theorem Hoist.track_demand_cases (h : Hoist) (g : Group) (dir : Travel) (mainsEn : Bool) (p rated : Nat) (reference : Int) :
    let t := h.track g dir mainsEn p rated reference
    let driven := t.landed ≠ true ∧ mainsEn = true
    let wanted := h.wanted g dir p reference
    let quotient := (wanted.toNat + rated / 2) / rated
    ¬ driven ∧ t.demand = ⟨0, false, false⟩ ∨
      driven ∧ wanted ≤ 0 ∧ t.demand = ⟨0, false, decide (0 < g.refSpeed)⟩ ∨
      driven ∧ 0 < wanted ∧ t.demand = ⟨intoRange 20 1000 quotient, decide (1000 < quotient), false⟩ := by
  intro t driven wanted quotient
  by_cases hd : driven
  · have goes := Hoist.track_driven hd
    rcases le_or_gt wanted 0 with hw | hw
    · exact .inr (.inl ⟨hd, hw, goes.trans (demandOf_nonpos hw ..)⟩)
    · exact .inr (.inr ⟨hd, hw, goes.trans (demandOf_pos hw ..)⟩)
  · exact .inl ⟨hd, Hoist.track_undriven hd⟩

/-- The evaluation of a moving member against a group with a direction and a reference (R71). -/
theorem Hoist.evaluateMoving_eq (hd : g.direction = some dir) (hr : g.reference = some reference)
    (hp : h.height = some p) (hs : h.ratedSpeed = some rated) :
    let t := h.track g dir mainsEn p rated reference
    h.evaluateMoving g mainsEn = ⟨{ h with
        baseline := h.capturedBaseline
        deviation := some t.deviation
        landed := t.landed
        demand := t.demand.value
        direction := if t.demand.value = 0 then .none else dir.direction },
      h.movingFindings g dir t⟩ := by
  simp only [Hoist.evaluateMoving, hd, hr, hp, hs]

end Track

/-! ### What an evaluation writes, and what it hands on (R81, R103, R104) -/

/-- The slot that an evaluation writes (R103, R104). -/
theorem State.evaluated_eq (s : State) (i : Slot) (h : Hoist) :
    s.evaluated i h = s.setSlot i { s.slot i with
      attention := decide ((s.slot i).attention = true ∨
        ∃ c ∈ (s.evaluation h).found, (c.condClass = .stop ∨ c.condClass = .maskable) ∧ c ∉ h.accrued)
      record := some (s.evaluatedRecord h) } := by
  rw [State.evaluated, SlotEntry.writeCurrent_eq rfl, s.accrued_evaluation h]
  rfl

/-- A record that does not move in a group raises no event that could wait (R81). -/
theorem State.movingEvents_none (hr : s.record i = some r) (before : Bool) (hn : ∀ k, r.state = .moving → r.group ≠ some k) :
    s.movingEvents i before = none := by
  cases he : s.movingEvents i before with
  | none => rfl
  | some e =>
    obtain ⟨h, k, hr', hs, hg, -⟩ := State.movingEvents_some he
    cases hr.symm.trans hr'
    exact absurd hg (hn k hs)

/-- A moving member raises its condition event and its landed event, where it has either (R81). -/
theorem State.movingEvents_moving (hr : s.record i = some r) (hs : r.state = .moving) (hg : r.group = some k)
    (before : Bool) :
    s.movingEvents i before =
      if s.detected k r ≠ none ∨ before = false ∧ r.landed = true then
        some ⟨k, i, s.detected k r, decide (before = false ∧ r.landed = true)⟩
      else none := by
  have newly : (!before && r.landed) = decide (before = false ∧ r.landed = true) := by simp
  simp only [State.movingEvents, hr, hs, hg, newly, Bool.or_eq_true, decide_eq_true_eq, Option.isSome_iff_ne_none]

/-- An evaluation that raises no event that could wait hands the others on at once. -/
theorem State.evaluate_handed (hr : s.record i = some h) (hn : (s.evaluated i h).movingEvents i h.landed = none)
    (stopped : Bool) :
    s.evaluate i stopped = (s.evaluated i h).handed i h.group h.landed (s.evaluation h).hoist.landed stopped := by
  rcases State.evaluate_cases hr stopped with ⟨-, e⟩ | ⟨e, he, -⟩
  · exact e
  · rw [hn] at he
    cases he

/-- Events that could wait do so, or not, by a free value (R87, log 27). -/
theorem State.evaluate_raised (hr : s.record i = some h) {e : MemberEvents}
    (he : (s.evaluated i h).movingEvents i h.landed = some e) (stopped : Bool) :
    s.evaluate i stopped =
      if Config.eventsWait s.freeCount then
        { s.evaluated i h with eventsWaiting := some e, freeCount := s.freeCount + 1 }
      else State.handed { s.evaluated i h with freeCount := s.freeCount + 1 } i h.group h.landed
        (s.evaluation h).hoist.landed stopped := by
  unfold State.evaluate
  rw [hr]
  dsimp only
  rw [State.modSlot_eq, ← State.evaluated, he]
  rfl

/-! ### The evaluation in the words of the statement -/

/-- The evaluation of a record that stands in a state of rest is the one at rest, and that of a jogging one the jog's (R71,
R131). -/
theorem State.evaluation_still (s : State) (h : Hoist) :
    (h.state = .ready ∨ h.state = .stopping ∨ h.state = .retiring → s.evaluation h = h.evaluateAtRest) ∧
      (h.state = .jogging → s.evaluation h = h.evaluateJog) := by
  unfold State.evaluation
  refine ⟨?_, fun hs => by rw [hs]⟩
  rintro (hs | hs | hs) <;> rw [hs]

/-- Settles O58: the checks by their `iff`s, the events through `State.evaluate_handed` and `State.evaluate_raised`, and the
tracking by whether the member is driven and wants to move. -/
theorem movingMemberEvaluated : Obligations.MovingMemberEvaluated := by
  refine ⟨fun s h => ?_, fun s i h stopped hr => ?_, fun h g mainsEn dir reference p rated hm hd href hp hrated => ?_⟩
  · intro ev trouble heavy
    refine ⟨fun k hs hg => ?_, fun hs => ?_, fun hs => ?_⟩
    · simp only [ev, State.evaluation, hs, hg, State.mainsEn]
    · have still : ev = h.evaluateAtRest := (s.evaluation_still h).1 hs
      have unmoving : h.state ≠ .moving := by rcases hs with hs | hs | hs <;> simp [hs]
      rw [still]
      exact ⟨rfl, fun c => by rw [h.mem_evaluateAtRest, Hoist.nodeFaulted_still unmoving, h.overloaded_iff]⟩
    · have jog : ev = h.evaluateJog := (s.evaluation_still h).2 hs
      have unmoving : h.state ≠ .moving := by simp [hs]
      rw [jog]
      exact ⟨rfl, fun c => by
        rw [h.mem_evaluateJog, Hoist.nodeFaulted_still unmoving, h.overloaded_iff, h.atLimit_up, h.atLimit_down]⟩
  · intro ev accrued t hand cause newly
    have written : s.evaluated i h = t := s.evaluated_eq i h
    have record : t.record i = some (s.evaluatedRecord h) := written ▸ s.record_evaluated i h
    refine ⟨CondSet.mem_union _ _, fun hn => ?_, fun k hs hg raised => ?_⟩
    · have quiet : (s.evaluated i h).movingEvents i h.landed = none := by
        rw [written]
        by_cases member : ∃ k, h.state = .moving ∧ h.group = some k
        · obtain ⟨k, hs, hg⟩ := member
          obtain ⟨noCause, notNewly⟩ := hn hs k hg
          rw [State.movingEvents_moving record (s.state_evaluatedRecord h ▸ hs) (s.group_evaluatedRecord h ▸ hg)]
          exact if_neg fun e => e.elim (fun e => e noCause) notNewly
        · refine State.movingEvents_none record _ fun k hs hg => member ⟨k, ?_, ?_⟩
          · rwa [s.state_evaluatedRecord] at hs
          · rwa [s.group_evaluatedRecord] at hg
      rw [State.evaluate_handed hr quiet stopped, written]
      rfl
    · have events : (s.evaluated i h).movingEvents i h.landed = some ⟨k, i, cause k, decide newly⟩ := by
        rw [written,
          State.movingEvents_moving record (s.state_evaluatedRecord h ▸ hs) (s.group_evaluatedRecord h ▸ hg)]
        exact if_pos raised
      rw [State.evaluate_raised hr events, written]
      rfl
  · intro ev d lead landed wanted quotient driven baseline
    have tracked : ev = _ := Hoist.evaluateMoving_eq hd href hp hrated
    have landed_iff : (h.track g dir mainsEn p rated reference).landed = true ↔ landed := Hoist.track_landed
    have driven_iff : _ ↔ driven := and_congr_left' (not_congr landed_iff)
    have wanted_eq : h.wanted g dir p reference = wanted := by cases dir <;> rfl
    have base : h.capturedBaseline = baseline := by
      rw [h.capturedBaseline_eq]
      cases hdev : h.deviation <;> cases hload : h.load <;> simp [baseline, hdev, hload]
    have demand := h.track_demand_cases g dir mainsEn p rated reference
    simp only [wanted_eq, driven_iff] at demand
    rw [tracked]
    obtain ⟨high, low, dev, xdev, limit, fault, overload, shift, underload, absent⟩ :=
      h.mem_movingFindings g dir (h.track g dir mainsEn p rated reference)
    refine ⟨⟨rfl, landed_iff, base, fun hn => ?_, fun hdr hw => ?_, rfl⟩, high.trans ?_, low.trans ?_, dev, xdev,
      limit.trans ?_, fault.trans (h.nodeFaulted_iff.trans ?_), overload.trans h.overloaded_iff,
      shift.trans (base ▸ h.loadShifted_iff), underload.trans (base ▸ h.underloaded_iff dir), absent⟩
    · dsimp only
      rcases demand with ⟨-, e⟩ | ⟨-, -, e⟩ | ⟨hdr, hw, -⟩
      · rw [e]; exact ⟨rfl, rfl⟩
      · rw [e]; exact ⟨rfl, rfl⟩
      · exact absurd hn (by simp [hdr, hw])
    · dsimp only
      rcases demand with ⟨hn, -⟩ | ⟨-, hn, -⟩ | ⟨-, -, e⟩
      · exact absurd hdr hn
      · exact absurd hw (not_lt.2 hn)
      · rw [e]
        refine ⟨rfl, ?_⟩
        rw [if_neg (intoRange_demand_pos _)]
        cases dir <;> rfl
    · rcases demand with ⟨hdr, e⟩ | ⟨-, hw, e⟩ | ⟨hdr, hw, e⟩
      · simp [e, hdr]
      · simp [e, not_lt.2 hw]
      · simp [e, hdr, hw, quotient]
    · rcases demand with ⟨hdr, e⟩ | ⟨hdr, hw, e⟩ | ⟨-, hw, e⟩
      · simp [e, hdr]
      · simp [e, hdr, hw]
      · simp [e, not_le.2 hw]
    · cases dir with
      | up => simp [h.atLimit_up, hp]
      | down => simp [h.atLimit_down, hp]
    · simp [hm, or_assoc]

end Sys2Proof.Machine

/-! ## The events of a group by its state, and what an evaluation hands on -/

namespace Sys2Proof.Machine

variable {s : State} {i : Slot} {k : GroupId} {h : Hoist} {c : Cond}

/-! ### The condition that acts (R98, R102, R107) -/

/-- The list of all conditions is in ascending code order (R102). -/
theorem Cond.all_ascending : Cond.all.Pairwise fun c d => c.code < d.code := by decide

/-- The condition of lowest code among those of a set that pass a test is the one that acts. -/
theorem CondSet.top_eq {a : CondSet} {p : Cond → Bool} (hc : c ∈ a ∧ p c = true)
    (hl : ∀ d, d ∈ a ∧ p d = true → c.code ≤ d.code) : a.top p = some c := by
  rw [CondSet.top, List.find?_eq_some_iff_append]
  obtain ⟨before, later, hall⟩ := List.append_of_mem c.mem_all
  refine ⟨by simpa using hc, before, later, hall, fun d hd => ?_⟩
  have ascends : d.code < c.code :=
    (List.pairwise_append.1 (hall ▸ Cond.all_ascending)).2.2 d hd c List.mem_cons_self
  rw [Bool.not_eq_true', ← Bool.not_eq_true]
  exact fun passes => absurd (hl d (by simpa using passes)) (not_le.2 ascends)

/-- A condition acts for the group: stop-class, or maskable and named by the stop mask (R81, R98). -/
theorem Cond.acts_iff (m : StopMask) (c : Cond) : (c.isStop || m.masks c) = true ↔
    c.condClass = .stop ∨ c = .underload ∧ m.underload = true ∨ c = .dev ∧ m.dev = true ∨
      c = .loadShift ∧ m.loadShift = true := by
  cases c <;> simp [Cond.isStop, Cond.condClass, StopMask.masks]

/-- A member of which no condition acts hands none (R98). -/
theorem State.detected_none
    (hn : ∀ c ∈ h.current, (c.isStop || (s.group k).settings.stopMask.masks c) = false) : s.detected k h = none := by
  rw [State.detected, (CondSet.top_none _ _).2 hn]
  rfl

/-- A member hands the acting condition of lowest code, with its cause's value (R81, R107). -/
theorem State.detected_some (hc : c ∈ h.current ∧ (c.isStop || (s.group k).settings.stopMask.masks c) = true)
    (hl : ∀ d, d ∈ h.current ∧ (d.isStop || (s.group k).settings.stopMask.masks d) = true → c.code ≤ d.code) :
    s.detected k h = some (c, h.causeValue c) := by
  rw [State.detected, CondSet.top_eq hc hl]
  rfl

/-- A record outside every group hands its condition to none (R81). -/
theorem State.handCondition_noGroup (hr : s.record i = some h) (hg : h.group = none) : s.handCondition i = s := by
  simp only [State.handCondition, hr, hg]

/-- A member of which no condition acts raises no condition event (R81). -/
theorem State.handCondition_none (hr : s.record i = some h) (hg : h.group = some k) (hd : s.detected k h = none) :
    s.handCondition i = s := by
  simp only [State.handCondition, hr, hg, hd]

/-- The condition event of a member (R81). -/
theorem State.handCondition_some {value : Option Int} (hr : s.record i = some h) (hg : h.group = some k)
    (hd : s.detected k h = some (c, value)) : s.handCondition i = s.conditionEvent k i c value := by
  simp only [State.handCondition, hr, hg, hd]

/-! ### The landed event and the arrival (R81 to R83) -/

/-- The arrival of a group is complete: it has arrived, and every member moves and has landed (R82). -/
def State.Arrives (s : State) (k : GroupId) : Prop :=
  (s.group k).state = .moving ∧ (s.group k).arrived = true ∧
    s.MembersAll k fun h => h.state = .moving ∧ h.landed = true

/-- The group has arrived, and its members stand ready (R82, R83). -/
def State.arrival (s : State) (k : GroupId) : State := (s.modGroup k Group.arrive).modMembers k Hoist.arrive

theorem State.arrives_iff (s : State) (k : GroupId) :
    ((s.group k).state = .moving ∧ (s.group k).arrived = true ∧ s.allLanded k = true) ↔ s.Arrives k := by
  rw [State.allLanded_iff]
  rfl

/-- A landed event before the arrival is complete changes nothing (R82). -/
theorem State.landedEvent_early (hn : ¬ s.Arrives k) : s.landedEvent k = s :=
  if_neg (mt (s.arrives_iff k).1 hn)

/-- The landed event that completes the arrival: without settle rounds the groups chained after it start (R46, R82, R83). -/
theorem State.landedEvent_last (ha : s.Arrives k) : s.landedEvent k =
    if (s.group k).settings.settleRounds = 0 then (s.arrival k).chainedStart k else s.arrival k :=
  if_pos ((s.arrives_iff k).2 ha)

/-- A landed event is one that was not landed before the evaluation and is after it (R81). -/
theorem State.handLanded_some (s : State) (k : GroupId) (before after : Bool) :
    s.handLanded (some k) before after = if before = false ∧ after = true then s.landedEvent k else s := rfl

/-- The group after its arrival (R66, R82, R83). -/
theorem Group.arrive_eq (g : Group) : g.arrive = { g with
    state := if g.settings.settleRounds = 0 then .idle else .settling
    queue := g.queue.tail
    settleRemaining := g.settings.settleRounds
    refSpeed := 0
    residue := 0
    stagedSpeed := none
    stagedTarget := none
    attention := decide (g.attention = true ∨ g.settings.settleRounds = 0)
    stepTimer := none
    holdTimer := none
    landingTimer := none
    stopTimer := none } := by
  unfold Group.arrive
  by_cases hz : g.settings.settleRounds = 0 <;> simp [hz, Group.leaveMoving, Group.stopTimers]

/-- Of the arrival, the group table and everything outside the two tables. -/
theorem State.arrival_eq (s : State) (k : GroupId) :
    s.arrival k = { s with slots := (s.arrival k).slots, groups := s.groups.set k (s.group k).arrive } := by
  have tables : s.TablesOnly (s.arrival k) := (State.TablesOnly.modGroup ..).trans (.modMembers ..)
  have groups : (s.arrival k).groups = s.groups.set k (s.group k).arrive := by
    rw [State.arrival, State.groups_modMembers]
    rfl
  rw [← groups]
  exact tables.eq

/-- The slots of the members that arrive (R16, R18). -/
theorem State.slot_arrival (ha : s.Arrives k) (i : Slot) : (s.arrival k).slot i =
    if i ∈ (s.group k).members then
      { s.slot i with record := (s.record i).map fun h =>
          { h with state := .ready, demand := 0, direction := .none, deviation := none, landed := false } }
    else s.slot i := by
  rw [State.arrival, State.slot_modMembers, State.group_modGroup_self, Group.members_arrive]
  split
  · next hi =>
    obtain ⟨-, -, all⟩ := ha
    obtain ⟨h, hr, hs, -⟩ := all i hi
    simp only [State.record_modGroup, State.slot_modGroup, hr, Option.map_some, Hoist.arrive, if_pos hs]
  · rfl

/-! ### Stop completion (R113) -/

/-- The completion of a stop, written out: GST_FAULTED for a fault, otherwise GST_IDLE, with attention. -/
theorem State.testStop_done (hs : (s.group k).state = .stopping)
    (hm : s.EveryMember k fun h => h.state = .ready ∨ h.state = .lost) :
    s.testStop k = s.withGroup k (s.group k).completeStop :=
  if_pos ⟨hs, (s.allAtRest_iff k).2 hm⟩

/-- A group that does not stop, or of which a member is not at rest, has no stop to complete. -/
theorem State.testStop_undone
    (hn : (s.group k).state ≠ .stopping ∨ s.SomeMember k fun h => h.state ≠ .ready ∧ h.state ≠ .lost) :
    s.testStop k = s := by
  refine if_neg fun ⟨hs, hm⟩ => hn.elim (fun e => e hs) fun e => ?_
  rw [(s.allAtRest_false k).2 e] at hm
  cases hm

/-! ### Events that waited (R81, R84, R87, log 27) -/

/-- The condition event that waited, if one did. -/
def State.takeWaitingCondition (s : State) (e : MemberEvents) : State :=
  match e.condition with
  | some (c, value) => s.conditionEvent e.group e.slot c value
  | none => s

/-- Events that waited: the condition event, then the landed event (R81). -/
theorem State.takeEvents_eq (s : State) (e : MemberEvents) :
    s.takeEvents e = (s.takeWaitingCondition e).handLanded (some e.group) false e.landed := by
  obtain ⟨group, slot, condition, landed⟩ := e
  cases condition <;> cases landed <;> rfl

/-- Events that waited are taken, and the round completes behind them where it is done (R84, log 27). -/
theorem State.deliverEvents_some {e : MemberEvents} (he : s.eventsWaiting = some e) :
    s.deliverEvents =
      if s.link.round = .inRound ∧ s.link.poll = none ∧ ∀ j ∈ s.link.pollList, ∃ l ∈ s.link.lastPolled, j ≤ l then
        (State.takeEvents { s with eventsWaiting := none } e).roundCompleted
      else State.takeEvents { s with eventsWaiting := none } e := by
  have tables := State.takeEvents_tables { s with eventsWaiting := none } e
  unfold State.deliverEvents
  rw [he]
  dsimp only
  generalize State.takeEvents { s with eventsWaiting := none } e = t at tables ⊢
  have link : t.link = s.link := tables.link
  have waiting : t.eventsWaiting = none := tables.eventsWaiting
  simp only [State.completeIdleRound, State.completeIfDone, State.completeRound_eq_roundCompleted, Link.nextSlot_none,
    link, waiting]
  by_cases idle : s.link.round = .inRound ∧ s.link.poll = none
  · simp [idle]
  · rw [if_neg fun e => idle ⟨e.1, e.2.1⟩, if_neg fun e => idle ⟨e.1, e.2.1⟩]

/-! ### The jog (R131, R133) -/

/-- The jog has travelled its distance (R131). -/
theorem Hoist.jogDone_iff (h : Hoist) : h.jogDone = true ↔ ∃ p ∈ h.height, ∃ start ∈ h.jogStart, ∃ d ∈ h.jogDistance,
    d * 1000 ≤ ((p : Int) - start).natAbs * 100 := by
  unfold Hoist.jogDone
  cases h.height <;> cases h.jogStart <;> cases h.jogDistance <;> simp

/-- A stop-class condition (R102). -/
theorem Cond.isStop_iff (c : Cond) : c.isStop = true ↔ c.condClass = .stop := by simp [Cond.isStop]

/-- A record that does not jog ends no jog. -/
theorem State.jogProgress_still (hr : s.record i = some h) (hs : h.state ≠ .jogging) : s.jogProgress i = s := by
  simp only [State.jogProgress, hr, if_neg hs]

/-- Without a stop-class condition the jog ends by its distance alone (R131). -/
theorem State.jogProgress_unstopped (hr : s.record i = some h) (hs : h.state = .jogging)
    (hn : h.current.top Cond.isStop = none) :
    s.jogProgress i = if h.jogDone = true then s.endJog .distance else s := by
  simp only [State.jogProgress, hr, if_pos hs, hn]

/-- A stop-class condition ends the jog (R131, R133). -/
theorem State.jogProgress_stopped (hr : s.record i = some h) (hs : h.state = .jogging)
    (hc : h.current.top Cond.isStop = some c) : s.jogProgress i = s.endJog (.condition c) := by
  simp only [State.jogProgress, hr, if_pos hs, hc]

/-! ### The events by the group's state (R108 to R111) -/

/-- Writing back the record that a group holds changes nothing. -/
theorem State.withGroup_same (s : State) (k : GroupId) : s.withGroup k (s.group k) = s := by
  refine State.ext_tables (fun _ => rfl) (fun j => ?_) rfl rfl rfl rfl rfl rfl rfl rfl
  rw [State.group_withGroup]
  split
  · next e => rw [e]
  · rfl

/-- A moving group stops for its member's condition (R108). -/
theorem State.conditionEvent_moving (hs : (s.group k).state = .moving) (i : Slot) (c : Cond) (value : Option Int) :
    s.conditionEvent k i c value = s.enterStopping k (.fault c) (some i) value :=
  (s.conditionEvent_eq ..).trans (if_pos hs)

/-- An armed or settling group is faulted (R108). -/
theorem State.conditionEvent_waiting (hs : (s.group k).state = .armed ∨ (s.group k).state = .settling) (i : Slot)
    (c : Cond) (value : Option Int) :
    s.conditionEvent k i c value = s.withGroup k ((s.group k).fault c (some i) value) := by
  rcases hs with hs | hs <;> simp [State.conditionEvent_eq, hs]

/-- An idle group posts a fault (R108, R111). -/
theorem State.conditionEvent_idle (hs : (s.group k).state = .idle) (i : Slot) (c : Cond) (value : Option Int) :
    s.conditionEvent k i c value = s.withGroup k ((s.group k).post c i value) := by
  simp [State.conditionEvent_eq, hs]

/-- A group that stops already, is faulted or is empty takes no condition event (R108). -/
theorem State.conditionEvent_ignored
    (hs : (s.group k).state = .stopping ∨ (s.group k).state = .faulted ∨ (s.group k).state = .empty) (i : Slot) (c : Cond)
    (value : Option Int) : s.conditionEvent k i c value = s := by
  rcases hs with hs | hs | hs <;> simp [State.conditionEvent_eq, hs]

/-- A fault found while none is pending is posted with attention (R111). -/
theorem Group.post_first {g : Group} (hp : g.pendingFault = none) (c : Cond) (i : Slot) (value : Option Int) :
    g.post c i value = { g with pendingFault := some ⟨c, i, value⟩, attention := true } := by
  rw [Group.post, hp]

/-- A fault found while one is pending is not posted (R111). -/
theorem Group.post_later {g : Group} (hp : g.pendingFault ≠ none) (c : Cond) (i : Slot) (value : Option Int) :
    g.post c i value = g := by
  obtain ⟨p, hp⟩ := Option.ne_none_iff_exists'.1 hp
  rw [Group.post, hp]

/-- A loss event of a stopping group is a test for completion (R109). -/
theorem State.lossEvent_stopping (hs : (s.group k).state = .stopping) (i : Slot) (value : Option Int) :
    s.lossEvent k i value = s.testStop k := by
  rw [State.lossEvent, hs]

/-- In any other state it is a condition event with COND_LOST (R109). -/
theorem State.lossEvent_of_ne (hs : (s.group k).state ≠ .stopping) (i : Slot) (value : Option Int) :
    s.lossEvent k i value = s.conditionEvent k i .lost value := by
  unfold State.lossEvent
  split
  · next e => exact absurd e hs
  · rfl

/-- Settles O59: each event goes through the lemma on the operation that takes it. -/
theorem conditionEventByGroupState : Obligations.ConditionEventByGroupState := by
  refine ⟨fun s i h hr => ?_, fun s => ?_, fun s k => ?_, fun s i h hr => ?_, fun s k i c value => ?_⟩
  · refine ⟨State.handCondition_noGroup hr, fun k hg => ?_⟩
    intro mask acts value
    have acts_iff (d : Cond) : d ∈ h.current ∧ (d.isStop || mask.masks d) = true ↔ acts d :=
      and_congr_right' (Cond.acts_iff mask d)
    refine ⟨fun hn => ?_, fun c hc hl => ?_⟩
    · have noCause : s.detected k h = none :=
        State.detected_none fun d hd => Bool.eq_false_iff.2 fun e => hn d ((acts_iff d).1 ⟨hd, e⟩)
      exact ⟨noCause, State.handCondition_none hr hg noCause⟩
    · have cause : s.detected k h = some (c, value c) := by
        rw [State.detected_some ((acts_iff c).2 hc) fun d hd => hl d ((acts_iff d).1 hd)]
        cases c <;> rfl
      exact ⟨cause, State.handCondition_some hr hg cause⟩
  · refine ⟨State.deliverEvents_none, fun e he => ?_⟩
    intro w v t done
    have taken : w.takeEvents e = t := w.takeEvents_eq e
    have delivered : s.deliverEvents = if done then t.roundCompleted else t :=
      taken ▸ State.deliverEvents_some he
    exact ⟨fun hd => delivered.trans (if_pos hd), fun hn => delivered.trans (if_neg hn),
      fun hs => taken ▸ State.takeEvents_stopping hs⟩
  · intro g arrived
    refine ⟨fun before after => ⟨rfl, fun hn => ?_⟩, fun ha => ?_, ⟨rfl, rfl⟩, State.testStop_undone, State.testStop_done⟩
    · rw [State.handLanded_some]
      split
      · next hl => exact State.landedEvent_early (hn.resolve_left fun e => e hl)
      · rfl
    · refine ⟨s.arrival k, ?_, State.slot_arrival ha, State.landedEvent_last ha⟩
      rw [← Group.arrive_eq]
      exact s.arrival_eq k
  · intro stops done
    have stops_iff (d : Cond) : d ∈ h.current ∧ d.isStop = true ↔ stops d := and_congr_right' d.isStop_iff
    have unstopped (hs : h.state = .jogging) (hn : ∀ d, ¬ stops d) :=
      State.jogProgress_unstopped hr hs ((CondSet.top_none _ _).2 fun d hd =>
        Bool.eq_false_iff.2 fun e => hn d ((stops_iff d).1 ⟨hd, e⟩))
    refine ⟨State.jogProgress_still hr, fun hs hn hd => ?_, fun hs hj => ⟨fun hn hd => ?_, fun c hc hl => ?_⟩⟩
    · exact (unstopped hs hn).trans (if_neg (mt h.jogDone_iff.1 hd))
    · rw [unstopped hs hn, if_pos (h.jogDone_iff.2 hd), State.endJog_eq hj hr hs]
    · rw [State.jogProgress_stopped hr hs
        (CondSet.top_eq ((stops_iff c).2 hc) fun d hd => hl d ((stops_iff d).1 hd)), State.endJog_eq hj hr hs]
  · intro g t
    refine ⟨fun hs => State.conditionEvent_moving hs .., fun hs => State.conditionEvent_waiting hs .., fun hs hp => ?_,
      fun hs hp => ?_, fun hs => State.conditionEvent_ignored hs .., fun hs => State.lossEvent_of_ne hs ..,
      fun hs hm => (State.lossEvent_stopping hs ..).trans (State.testStop_done hs hm),
      fun hs hm => (State.lossEvent_stopping hs ..).trans (State.testStop_undone (.inr hm))⟩
    · exact (State.conditionEvent_idle hs ..).trans (congrArg (s.withGroup k) (Group.post_first hp ..))
    · exact (State.conditionEvent_idle hs ..).trans
        ((congrArg (s.withGroup k) (Group.post_later hp ..)).trans (s.withGroup_same k))

end Sys2Proof.Machine

/-! ## ACKFAULT and CLRFLAGS -/

namespace Sys2Proof.Machine

/-! ### ACKFAULT (R118) -/

/-- The check of ACKFAULT, in the words of the statement (R118). -/
theorem State.memberStopCondition_iff (s : State) (k : GroupId) :
    s.memberStopCondition k = true ↔ s.SomeMember k fun h => ∃ c ∈ h.current, c.condClass = .stop := by
  simp only [State.memberStopCondition, List.any_eq_true, State.memberRecords, List.mem_filterMap, CondSet.hasStop_iff]
  constructor
  · rintro ⟨h, ⟨i, hi, hr⟩, hc⟩
    exact ⟨i, hi, h, hr, hc⟩
  · rintro ⟨i, hi, h, hr, hc⟩
    exact ⟨h, ⟨i, hi, hr⟩, hc⟩

/-- A fault is gone where no member's current set holds a stop-class condition (R118). -/
theorem State.memberStopCondition_eq_false (s : State) (k : GroupId) :
    s.memberStopCondition k = false ↔ s.EveryMember k fun h => ∀ c ∈ h.current, c.condClass ≠ .stop := by
  rw [← Bool.not_eq_true, State.memberStopCondition_iff]
  simp only [State.SomeMember, State.EveryMember, not_exists, not_and, ne_eq]

/-- A fault that is gone leaves the group's record: idle, without stop cause and first-fault record (R118). -/
def Group.acknowledged (g : Group) : Group :=
  { g.stopTimers with state := .idle, firstFault := none, stopCause := none }

section Ackfault
variable {s : State} {group : Byte}

theorem State.ackFault_noGroup (h : 8 ≤ group.toNat) : s.ackFault group = (s, .plain .range) := by
  simp only [State.ackFault, groupOf_none h]

variable {k : GroupId} (hk : group.toNat = k.val)
include hk

/-- ACKFAULT of a faulted group: its members' current sets decide (R118). -/
theorem State.ackFault_faulted (hs : (s.group k).state = .faulted) :
    s.ackFault group =
      if s.memberStopCondition k = true then (s, .plain .notReady)
      else (s.withGroup k (s.group k).acknowledged, .plain .ok) := by
  simp only [State.ackFault, groupOf_eq hk, hs, State.modGroup_eq, Group.acknowledged]

theorem State.ackFault_idle (hs : (s.group k).state = .idle) :
    s.ackFault group = (s.withGroup k { s.group k with pendingFault := none }, .plain .ok) := by
  simp only [State.ackFault, groupOf_eq hk, hs, State.modGroup_eq]

theorem State.ackFault_refused (hf : (s.group k).state ≠ .faulted) (hi : (s.group k).state ≠ .idle) :
    s.ackFault group = (s, .plain .state) := by
  cases hs : (s.group k).state with
  | faulted => exact absurd hs hf
  | idle => exact absurd hs hi
  | _ => simp only [State.ackFault, groupOf_eq hk, hs]

end Ackfault

/-- Settles O38: the group's state decides, and for a faulted group the members' stop-class conditions. -/
theorem ackfaultClearsFault : Obligations.AckfaultClearsFault := by
  intro s group hp
  refine ⟨fun hg => complete_console_refused hp (State.ackFault_noGroup hg), fun k hk =>
    ⟨fun hs hm => complete_console_refused hp ?_, fun hs hm => complete_console hp ?_, fun hs => complete_console hp ?_,
      fun hf hi => complete_console_refused hp (State.ackFault_refused hk hf hi)⟩⟩
  · exact (State.ackFault_faulted (s := s.dropWalk) hk hs).trans (if_pos ((State.memberStopCondition_iff ..).2 hm))
  · have gone : s.dropWalk.memberStopCondition k = false := (State.memberStopCondition_eq_false ..).2 hm
    rw [State.ackFault_faulted (s := s.dropWalk) hk hs, gone, if_neg Bool.false_ne_true]
    rfl
  · rw [State.ackFault_idle (s := s.dropWalk) hk hs]
    rfl

/-! ### CLRFLAGS (R119) -/

section Clrflags
variable {s : State} {slot : Byte}

theorem State.clearFlags_noSlot (h : 32 ≤ slot.toNat) : s.clearFlags slot = (s, .plain .range) := by
  simp only [State.clearFlags, slotOf_none h]

variable {i : Slot} (hi : slot.toNat = i.val)
include hi

theorem State.clearFlags_empty (hr : s.record i = none) : s.clearFlags slot = (s, .plain .empty) := by
  simp only [State.clearFlags, slotOf_eq hi, hr]

theorem State.clearFlags_record {h : Hoist} (hr : s.record i = some h) :
    s.clearFlags slot = (s.withRecord i { h with accrued := [] }, .plain .ok) := by
  simp only [State.clearFlags, slotOf_eq hi, hr, State.modRecord_eq hr]

end Clrflags

/-- Settles O24: the slot's range, then its record, and the one write of R119. -/
theorem clrflagsEmptiesAccruedSet : Obligations.ClrflagsEmptiesAccruedSet := by
  intro s slot hp
  refine ⟨fun hs => complete_console_refused hp (State.clearFlags_noSlot hs), fun i hi =>
    ⟨fun hr => complete_console_refused hp (State.clearFlags_empty hi hr), fun h hr => complete_console hp ?_⟩⟩
  rw [State.clearFlags_record (s := s.dropWalk) hi hr]
  rfl

end Sys2Proof.Machine

/-! ## JOG, HOLD of a group, PERMIT and the release of ESTOP_N -/

namespace Sys2Proof.Machine

/-! ### JOG (R129, R130) -/

theorem travelOf_eq {b : Byte} {dir : Travel} (h : b = 1 ∧ dir = .up ∨ b = 2 ∧ dir = .down) : travelOf b = some dir := by
  rcases h with ⟨rfl, rfl⟩ | ⟨rfl, rfl⟩ <;> rfl

theorem travelOf_none {b : Byte} (h1 : b ≠ 1) (h2 : b ≠ 2) : travelOf b = none := by
  rw [travelOf, if_neg h1, if_neg h2]

/-- The fourth to the sixth check of JOG: the hoist is ready, its group rests, and no hoist jogs (R129). -/
def State.mayJog (s : State) (h : Hoist) : Prop :=
  h.state = .ready ∧ s.groupAllows h GroupState.atRest = true ∧ s.anyJogging = false

theorem State.mayJog_iff (s : State) (h : Hoist) : s.mayJog h ↔ h.state = .ready ∧
    (∀ k ∈ h.group, (s.group k).state = .empty ∨ (s.group k).state = .idle ∨ (s.group k).state = .faulted) ∧
    ∀ j, s.hoistState j ≠ some .jogging := by
  simp only [State.mayJog, State.groupAllows_iff, GroupState.atRest_iff, ← Bool.not_eq_true, State.anyJogging_iff,
    not_exists, ne_eq]

/-- COND_LIMIT in the direction of a jog, at a known height (R80, R129). -/
theorem Hoist.atLimit_iff {h : Hoist} {p : Nat} (hp : h.height = some p) (dir : Travel) : h.atLimit dir = true ↔
    match dir with
      | .up => (∃ f ∈ h.nodeFlags, f.getLsbD 5 = true) ∨ h.upper * 10 ≤ p
      | .down => (∃ f ∈ h.nodeFlags, f.getLsbD 4 = true) ∨ p ≤ h.lower * 10 := by
  cases dir with
  | up => simp [Hoist.atLimit_up, hp]
  | down => simp [Hoist.atLimit_down, hp]

/-- An accepted JOG writes the record, the jog slot and the jog hold timer (R130). -/
theorem State.startJog_eq {s : State} {i : Slot} {h : Hoist} (hr : s.record i = some h) (dir : Travel) (distance p : Nat) :
    s.startJog i dir distance p =
      { s.withRecord i { h with
          state := .jogging
          demand := h.jogDemand
          direction := match dir with
            | .up => .up
            | .down => .down
          jogStart := some p
          jogDistance := some distance } with
        safety := { s.safety with jogSlot := some i, jogTimer := some 300000 } } := by
  rw [State.startJog, State.modRecord_eq hr]
  cases dir <;> rfl

section Jog
variable {s : State} {slot direction : Byte} {distance : BitVec 16}

theorem State.takeJog_noSlot (h : 32 ≤ slot.toNat) : s.takeJog slot direction distance = (s, .plain .range) := by
  simp only [State.takeJog, slotOf_none h]

variable {i : Slot} (hi : slot.toNat = i.val)
include hi

/-- The second check of JOG: its direction and its distance (R129). -/
theorem State.takeJog_badArgument
    (h : direction ≠ 1 ∧ direction ≠ 2 ∨ distance.toNat = 0 ∨ 500 < distance.toNat) :
    s.takeJog slot direction distance = (s, .plain .range) := by
  rw [State.takeJog, slotOf_eq hi]
  rcases h with ⟨h1, h2⟩ | hd
  · rw [travelOf_none h1 h2]
  · have outside : distance.toNat < 1 ∨ Config.jogDistMax < distance.toNat := hd.imp (by omega) id
    cases travelOf direction with
    | none => rfl
    | some dir => exact if_pos outside

variable {dir : Travel} (hdir : travelOf direction = some dir) (inside : 1 ≤ distance.toNat ∧ distance.toNat ≤ 500)
include hdir inside

/-- With its arguments in range JOG goes by the slot's record: its third to its ninth check (R129). -/
theorem State.takeJog_inside : s.takeJog slot direction distance =
    (s.record i).elim (s, .plain .empty) fun h =>
      if h.state ≠ .ready then (s, .plain .state)
      else if s.groupAllows h GroupState.atRest = false then (s, .plain .state)
      else if s.anyJogging = true then (s, .plain .state)
      else if s.safety.permit = false then (s, .plain .noPower)
      else h.height.elim (s, .plain .notReady) fun p =>
        if h.atLimit dir = true then (s, .plain .limit) else (s.startJog i dir distance.toNat p, .plain .ok) := by
  have notOutside : ¬ (distance.toNat < 1 ∨ Config.jogDistMax < distance.toNat) := by
    unfold Config.jogDistMax
    omega
  simp only [State.takeJog, slotOf_eq hi, hdir, if_neg notOutside, Bool.not_eq_true', State.mainsEn]
  cases s.record i with
  | none => rfl
  | some h => cases hh : h.height <;> simp only [hh, Option.elim]

variable {h : Hoist} (hr : s.record i = some h)
include hr

theorem State.takeJog_misplaced (hm : ¬ s.mayJog h) : s.takeJog slot direction distance = (s, .plain .state) := by
  rw [State.takeJog_inside hi hdir inside, hr, Option.elim]
  by_cases ready : h.state = .ready
  · rw [if_neg (not_not.2 ready)]
    cases rests : s.groupAllows h GroupState.atRest with
    | false => rfl
    | true =>
      have jogs : s.anyJogging = true := by
        by_contra hj
        exact hm ⟨ready, rests, by simpa using hj⟩
      rw [if_neg Bool.noConfusion, if_pos jogs]
  · exact if_pos ready

/-- A hoist that may jog does so with power, at a known height that is off the limit of its direction (R129). -/
theorem State.takeJog_placed (hm : s.mayJog h) : s.takeJog slot direction distance =
    if s.safety.permit = false then (s, .plain .noPower)
    else h.height.elim (s, .plain .notReady) fun p =>
      if h.atLimit dir = true then (s, .plain .limit) else (s.startJog i dir distance.toNat p, .plain .ok) := by
  obtain ⟨ready, rests, still⟩ := hm
  simp only [State.takeJog_inside hi hdir inside, hr, Option.elim, ready, rests, still, ne_eq, not_true_eq_false,
    Bool.true_eq_false, Bool.false_eq_true, if_false]

variable (hm : s.mayJog h)
include hm

theorem State.takeJog_noPower (hp : s.safety.permit = false) :
    s.takeJog slot direction distance = (s, .plain .noPower) := by
  rw [State.takeJog_placed hi hdir inside hr hm, if_pos hp]

variable (hp : s.safety.permit = true)
include hp

theorem State.takeJog_noHeight (hh : h.height = none) : s.takeJog slot direction distance = (s, .plain .notReady) := by
  rw [State.takeJog_placed hi hdir inside hr hm, if_neg (by simp [hp]), hh, Option.elim]

theorem State.takeJog_height {p : Nat} (hh : h.height = some p) : s.takeJog slot direction distance =
    if h.atLimit dir = true then (s, .plain .limit) else (s.startJog i dir distance.toNat p, .plain .ok) := by
  rw [State.takeJog_placed hi hdir inside hr hm, if_neg (by simp [hp]), hh, Option.elim]

end Jog

/-- Settles O39: the nine checks of R129 in their order, then the start of R130. -/
theorem jogStartsOrRefuses : Obligations.JogStartsOrRefuses := by
  intro s slot direction distance hp
  refine ⟨fun hs => complete_console_refused hp (State.takeJog_noSlot hs), fun i hi =>
    ⟨fun hd => complete_console_refused hp (State.takeJog_badArgument hi hd), fun dir hd h1 h2 => ?_⟩⟩
  have hdir := travelOf_eq hd
  have inside := And.intro h1 h2
  refine ⟨fun hr => complete_console_refused hp ?_, fun h hr => ?_⟩
  · rw [State.takeJog_inside hi hdir inside, State.record_dropWalk, hr, Option.elim]
  intro placed stands
  have may : s.dropWalk.mayJog h ↔ placed := s.dropWalk.mayJog_iff h
  refine ⟨fun hm => complete_console_refused hp ?_, fun hm power => complete_console_refused hp ?_,
    fun hm power hh => complete_console_refused hp ?_, fun p hm power hh => ?_⟩
  · exact State.takeJog_misplaced (s := s.dropWalk) hi hdir inside hr (mt may.1 hm)
  · exact State.takeJog_noPower (s := s.dropWalk) hi hdir inside hr (may.2 hm) power
  · exact State.takeJog_noHeight (s := s.dropWalk) hi hdir inside hr (may.2 hm) power hh
  have run := State.takeJog_height (s := s.dropWalk) hi hdir inside hr (may.2 hm) power hh
  have limit : h.atLimit dir = true ↔ stands p := h.atLimit_iff hh dir
  refine ⟨fun hl => complete_console_refused hp ?_, fun hl => complete_console hp ?_⟩
  · rw [run, if_pos (limit.2 hl)]
  · rw [run, if_neg (mt limit.1 hl), State.startJog_eq (s := s.dropWalk) hr]
    rfl

/-! ### HOLD of a group (R126) -/

section Hold
variable {s : State} {group : Byte}

theorem State.takeHold_noGroup (h : 9 ≤ group.toNat) : s.takeHold group = (s, .plain .range) := by
  have : group ≠ 8 := fun e => by subst e; simp at h
  rw [State.takeHold, if_neg this, groupOf_none (by omega)]

variable {k : GroupId} (hk : group.toNat = k.val)
include hk

/-- HOLD of a group argument in range is the group's hold. -/
theorem State.takeHold_group : s.takeHold group = s.holdGroup k := by
  have : group ≠ 8 := by
    rintro rfl
    cases groupOf_eq hk
  rw [State.takeHold, if_neg this, groupOf_eq hk]

theorem State.takeHold_held (hs : (s.group k).state = .moving) (hc : (s.group k).holdSource = some .console) :
    s.takeHold group = (s.withGroup k { s.group k with
      holdTimer := some ((s.group k).settings.holdTimeout * 1000) }, .plain .ok) := by
  rw [State.takeHold_group hk, State.holdGroup, if_pos ⟨hs, hc⟩, State.modGroup_eq]

theorem State.takeHold_refused (hn : ¬ ((s.group k).state = .moving ∧ (s.group k).holdSource = some .console)) :
    s.takeHold group = (s, .plain .state) := by
  rw [State.takeHold_group hk, State.holdGroup, if_neg hn]

end Hold

/-- Settles O32: the index 8 apart, the group's state and hold source decide. -/
theorem holdRestartsHoldTimer : Obligations.HoldRestartsHoldTimer := by
  intro s group hp
  refine ⟨fun hg => complete_console_refused hp (State.takeHold_noGroup hg), fun k hk =>
    ⟨fun hs hc => complete_console hp ?_, fun hn => complete_console_refused hp (State.takeHold_refused hk hn)⟩⟩
  rw [State.takeHold_held (s := s.dropWalk) hk hs hc]
  rfl

/-! ### PERMIT (R136) -/

theorem State.takePermit_asserted {s : State} (h : s.safety.estopAsserted = true) : s.takePermit = (s, .plain .state) :=
  if_pos h

theorem State.takePermit_released {s : State} (h : s.safety.estopAsserted = false) :
    s.takePermit = ({ s with safety := { s.safety with permit := true } }, .plain .ok) :=
  if_neg (by simp [h])

@[simp] theorem State.safety_answering (s : State) (st : Status) (data : List Byte) :
    (s.answering st data).safety = s.safety := State.safety_repace _

/-- Settles O40: the level of ESTOP_N decides, and MAINS_EN is the permit latch (R123). -/
theorem permitAssertsMainsEn : Obligations.PermitAssertsMainsEn := by
  intro s hp
  refine ⟨fun he => complete_console_refused hp (State.takePermit_asserted he), fun he => ⟨complete_console hp ?_, ?_⟩⟩
  · rw [State.takePermit_released (s := s.dropWalk) he]
    rfl
  · rw [State.mainsEn, State.safety_answering]

/-! ### The release of ESTOP_N (R135) -/

/-- A release at an asserted level takes the level back and sets ESTOP_CLEARED (R135). -/
theorem State.releaseEstop_asserted {s : State} (h : s.safety.estopAsserted = true) :
    s.releaseEstop = { s with safety := { s.safety with estopAsserted := false, estopCleared := true } } :=
  if_pos h

/-- Settles O45: of SLB's state the delivery of a waiting assertion writes only that it waits, so the release finds the
level asserted and the permit latch as they were. -/
theorem estopReleaseKeepsPowerOff : Obligations.EstopReleaseKeepsPowerOff := by
  intro s he u
  have lines : u.safety = { s.safety with estopWaiting := false } := s.deliverWaiting_spec.2.1
  have asserted : u.safety.estopAsserted = true := by rw [lines]; exact he
  refine ⟨State.deliverWaiting_none, ?_, by rw [lines]⟩
  exact congrArg (fun t => Host.Outcome.next t.repace) (State.releaseEstop_asserted asserted)

end Sys2Proof.Machine

/-! ## The poll list under every step (R143) -/

namespace Sys2Proof.Machine

/-- Settles O8: a step changes the roster by whole records only, and the poll list follows the records. -/
theorem stepKeepsPollList : Obligations.StepKeepsPollList := fun _ _ hs he => pollList_kept.step hs he

end Sys2Proof.Machine

/-! ## The drive link: round starts, the abort of a poll, and the reply window -/

namespace Sys2Proof.Machine

variable {s : State} {p : PollInFlight}

/-! ### ROUND_START and HALT_ALL (R144, R155, R156) -/

theorem haltAllBytes_eq : haltAllBytes = [0xBF, hiByte (crc16 [0xBF]), loByte (crc16 [0xBF])] := rfl

theorem frameMicros_haltAll : frameMicros haltAllBytes = 60 := rfl

theorem Link.free_iff (l : Link) : l.free = true ↔ l.poll = none ∧ l.line ≠ .discarding := by
  simp [Link.free]

/-- HALT_ALL in the words of the statements (R155, R184). -/
theorem Link.sendHalt_eq (l : Link) : l.sendHalt = { l with haltOwed := false, line := .sendingHalt 60 } := by
  rw [Link.sendHalt, frameMicros_haltAll]

/-- An awaited round starts on a free line; while ESTOP_N is asserted it begins with the HALT_ALL that it owes (R156). -/
theorem State.takeRoundStart_awaited {pace : Pace} (hround : s.link.round = .between pace)
    (howed : s.link.haltOwed = false) (hfree : s.link.free = true) :
    s.takeRoundStart = { s with link := { s.link with
      round := .inRound
      lastPolled := none
      roundStart := some s.now
      haltOwed := false
      line := if s.safety.estopAsserted then .sendingHalt 60 else s.link.line } } := by
  have go : ¬ (s.link.haltOwed = true ∨ s.link.free = false) := by simp [howed, hfree]
  rw [State.takeRoundStart, hround]
  dsimp only
  rw [if_neg go]
  cases he : s.safety.estopAsserted with
  | false => simp [State.startRound, State.modLink, howed, he]
  | true => simp [State.startRound, State.modLink, Link.sendHalt_eq]

theorem State.takeHaltAll_owed (howed : s.link.haltOwed = true) (hfree : s.link.free = true) :
    s.takeHaltAll = { s with link := { s.link with haltOwed := false, line := .sendingHalt 60 } } := by
  rw [State.takeHaltAll, if_pos ⟨howed, hfree⟩, State.modLink, Link.sendHalt_eq]

/-- Settles O51: the line is free, and a round that has started awaits none, so no pace is set anew. -/
theorem roundStartsAndHaltAll : Obligations.RoundStartsAndHaltAll := by
  refine ⟨fun s pace hround howed hpoll hline => ?_, fun s howed hpoll hline => ?_, haltAllBytes_eq⟩
  · show Host.Outcome.next s.takeRoundStart.repace = _
    rw [State.takeRoundStart_awaited hround howed (s.link.free_iff.2 ⟨hpoll, hline⟩), State.repace_of_paced]
    exact fun h => RoundState.noConfusion h
  · show Host.Outcome.next s.takeHaltAll.repace = _
    rw [State.takeHaltAll_owed howed (s.link.free_iff.2 ⟨hpoll, hline⟩)]

/-! ### The abort of a poll (R155) -/

/-- What the line does once a poll at each stage is aborted (R155, log 24). -/
inductive Link.Aborts (l : Link) (p : PollInFlight) : LineActivity → Prop
  | cut {bytes : List Byte} {left : Nat} (hst : p.stage = .sending) (hl : l.line = .sendingPoll bytes left) :
    l.Aborts p (.cutPoll (byteInProgress bytes left) (byteRest left))
  | quiet {left : Nat} (hst : p.stage = .awaiting left) : l.Aborts p .quiet
  | discard {early : Bool} (hst : p.stage = .receiving early) : l.Aborts p .discarding

theorem Link.Aborts.abortLine {l : Link} {line : LineActivity} (h : l.Aborts p line) :
    l.abortLine p = { l with line := line } := by
  cases h with
  | cut hst hl => simp [Link.abortLine, hst, hl]
  | quiet hst => simp [Link.abortLine, hst]
  | discard hst => simp [Link.abortLine, hst]

theorem State.estopLink_sendingHalt {left : Nat} (h : s.link.line = .sendingHalt left) : s.estopLink = s := by
  rw [State.estopLink, h]

theorem State.estopLink_noPoll (hl : ∀ left, s.link.line ≠ .sendingHalt left) (hp : s.link.poll = none) :
    s.estopLink = s.modLink Link.oweHalt := by
  unfold State.estopLink
  split
  · next left h => exact absurd h (hl left)
  · rw [hp]

theorem State.estopLink_poll (hl : ∀ left, s.link.line ≠ .sendingHalt left) (hp : s.link.poll = some p) :
    s.estopLink = ((s.modLink fun l => l.abortLine p).closePoll p.slot).modLink Link.oweHalt := by
  unfold State.estopLink
  split
  · next left h => exact absurd h (hl left)
  · rw [hp]

theorem Link.oweHalt_eq (l : Link) :
    l.oweHalt = { l with haltOwed := if l.round = .stopped then l.haltOwed else true } := by
  unfold Link.oweHalt
  split <;> rfl

/-- The completion of a round leaves a HALT_ALL to owe exactly where a slot is listed (R147, log 12). -/
theorem State.oweHalt_roundCompleted (s : State) :
    s.roundCompleted.modLink Link.oweHalt = { s.roundCompleted with link := { s.roundCompleted.link with
      haltOwed := decide (s.link.pollList ≠ []) } } := by
  rw [State.modLink, Link.oweHalt_eq]
  cases hl : s.link.pollList <;> simp [State.roundCompleted, hl]

/-- Settles O43: the abort closes the poll as its end would, and then owes HALT_ALL where the round left one to owe. -/
theorem estopAbortsPoll : Obligations.EstopAbortsPoll := by
  refine fun s => ⟨fun left h => State.estopLink_sendingHalt h, fun hl hp => ?_, ?_⟩
  · rw [State.estopLink_noPoll hl hp, State.modLink, Link.oweHalt_eq]
  intro p line hl hp hround hline a
  have aborts : s.link.Aborts p line := by
    rcases hline with ⟨bytes, left, hst, hb, rfl⟩ | ⟨left, hst, rfl⟩ | ⟨early, hst, rfl⟩
    · exact .cut hst hb
    · exact .quiet hst
    · exact .discard hst
  have closed : s.estopLink = a.completeIfDone.modLink Link.oweHalt := by
    have shut : (s.link.abortLine p).shutPoll p.slot = a.link := by rw [aborts.abortLine]; rfl
    rw [State.estopLink_poll hl hp]
    exact congrArg (fun l => (State.completeIfDone { s with link := l }).modLink Link.oweHalt) shut
  have done : a.link.nextSlot = none ↔ ∀ j ∈ s.link.pollList, j ≤ p.slot := by
    rw [Link.nextSlot_none]
    simp [a]
  rw [closed, State.completeIfDone]
  refine ⟨fun ⟨j, hj, hlt⟩ => ?_, fun hall => ?_⟩
  · rw [if_neg fun x => absurd (done.1 x j hj) (Fin.not_le.2 hlt), State.modLink, Link.oweHalt_eq, if_neg]
    exact fun x => RoundState.noConfusion (hround.symm.trans x)
  · rw [if_pos (done.2 hall), State.completeRound_eq_roundCompleted, State.oweHalt_roundCompleted]

/-! ### The reply window (R149, R159) -/

theorem State.takeEndOfPoll_sending (hp : s.link.poll = some p) (hst : p.stage = .sending) :
    s.takeEndOfPoll = { s with link := { s.link with
      poll := some { p with stage := .awaiting p.timeout }, line := .quiet, gap := 0, lineGap := 30 } } := by
  simp only [State.takeEndOfPoll, hp, if_pos hst]
  rfl

theorem State.takeFirstStartBit_noPoll (hp : s.link.poll = none) (elapsed : Nat) : s.takeFirstStartBit elapsed = s := by
  simp only [State.takeFirstStartBit, hp]

/-- A start bit while the response timer runs: within the timeout in force it begins a reply, later it is the expiry. -/
theorem State.takeFirstStartBit_awaiting {left : Nat} (hp : s.link.poll = some p) (hst : p.stage = .awaiting left)
    (elapsed : Nat) :
    s.takeFirstStartBit elapsed =
      if elapsed ≤ p.timeout then
        { s with link := { s.link with poll := some { p with stage := .receiving (decide (elapsed < 10)) } } }
      else s.takeResponseExpiry := by
  simp only [State.takeFirstStartBit, hp, hst]
  rfl

/-- Settles O53: the stage of the poll and the timeout it carries decide. -/
theorem replyWindowOpens : Obligations.ReplyWindowOpens := by
  refine ⟨fun s p hp hst => congrArg complete (State.takeEndOfPoll_sending hp hst),
    fun s elapsed hp => congrArg complete (State.takeFirstStartBit_noPoll hp elapsed),
    fun s p left elapsed hp hst => ⟨fun h => congrArg complete ?_, fun h => congrArg complete ?_⟩⟩
  · rw [State.takeFirstStartBit_awaiting hp hst, if_pos h]
  · rw [State.takeFirstStartBit_awaiting hp hst, if_neg (Nat.not_le.2 h)]

end Sys2Proof.Machine

/-! ## Polls that end without a valid reply -/

namespace Sys2Proof.Machine

variable {s : State} {p : PollInFlight} {h : Hoist}

/-! ### The checks of a whole frame, one by one (R151) -/

/-- A word is its two bytes. -/
theorem hiByte_loByte_inj {v w : BitVec 16} (hh : hiByte v = hiByte w) (hl : loByte v = loByte w) : v = w := by
  rw [← wordOf_hiByte_loByte v, ← wordOf_hiByte_loByte w, hh, hl]

/-- The CRC check of a frame compares the word in its last two bytes (R140). -/
theorem crcMatches_iff (body : List Byte) (crc : BitVec 16) :
    crcMatches (body ++ [hiByte crc, loByte crc]) = true ↔ crc = crc16 body := by
  have hl : (body ++ [hiByte crc, loByte crc]).length - 2 = body.length := by simp
  rw [crcMatches, hl, List.drop_left, List.take_left, beq_iff_eq, List.cons.injEq, List.cons.injEq]
  exact ⟨fun ⟨hh, hl, _⟩ => hiByte_loByte_inj hh hl, fun e => by simp [e]⟩

/-- The judging of a frame of its whole length that began in time: the checks that are left, in their order. -/
theorem judgeReply_whole (p : PollInFlight) (address : Nat) {head : Byte} {rest : List Byte} (crc : BitVec 16)
    (hlen : replyLength head = some (rest.length + 3)) :
    let frame := head :: rest ++ [hiByte crc, loByte crc]
    judgeReply p false address frame =
      if crc ≠ crc16 (head :: rest) then some .crc
      else if (head.extractLsb' 0 6).toNat ≠ address then some .address
      else if head.extractLsb' 6 2 ≠ p.frame.replyKind then some .kind
      else if p.frame = .run ∧ (frame.getD 7 0).getLsbD 7 ≠ p.seqBit then some .stale
      else if p.frame = .run ∧ 500000 < frameHeight frame then some .range
      else none := by
  intro frame
  have whole : ¬ ((frame.isEmpty || decide (replyLength head ≠ some frame.length)) = true) := by simp [frame, hlen]
  have crcs : (!crcMatches frame) = true ↔ crc ≠ crc16 (head :: rest) := by
    rw [Bool.not_eq_true', ← Bool.not_eq_true, crcMatches_iff]
  unfold judgeReply
  dsimp only
  rw [if_neg Bool.false_ne_true, show frame.headD 0 = head from rfl, if_neg whole]
  simp only [crcs]
  rfl

/-- The judging of a whole STATUS frame that began in time. -/
theorem judgeReply_status (p : PollInFlight) (a : Nat) (address : BitVec 6) (flags : Byte) (height : BitVec 24)
    (load : BitVec 16) (echo : Byte) (crc : BitVec 16) :
    judgeReply p false a (statusFrame address flags height load echo crc) =
      if crc ≠ crc16 [(0#2) ++ address, flags, height.extractLsb' 16 8, height.extractLsb' 8 8, height.extractLsb' 0 8,
        hiByte load, loByte load, echo] then some .crc
      else if address.toNat ≠ a then some .address
      else if p.frame = .ident then some .kind
      else if echo.getLsbD 7 ≠ p.seqBit then some .stale
      else if 500000 < height.toNat then some .range
      else none := by
  have judged := judgeReply_whole p a (head := (0#2) ++ address) (rest := [flags, height.extractLsb' 16 8,
    height.extractLsb' 8 8, height.extractLsb' 0 8, hiByte load, loByte load, echo]) crc
    (by rw [replyLength, kind_head]; rfl)
  have height := frameHeight_status height ((0#2) ++ address) flags (hiByte load) (loByte load) echo (hiByte crc)
    (loByte crc)
  refine judged.trans ?_
  simp only [List.cons_append, List.nil_append, height, kind_head, address_head]
  cases p.frame <;> simp [PollFrame.replyKind]

/-- The judging of a whole IDENT frame that began in time. -/
theorem judgeReply_ident (p : PollInFlight) (a : Nat) (address : BitVec 6) (flags : Byte)
    (ratedLoad ratedSpeed crc : BitVec 16) :
    judgeReply p false a (identFrame address flags ratedLoad ratedSpeed crc) =
      if crc ≠ crc16 [(1#2) ++ address, flags, hiByte ratedLoad, loByte ratedLoad, hiByte ratedSpeed, loByte ratedSpeed] then
        some .crc
      else if address.toNat ≠ a then some .address
      else if p.frame = .run then some .kind
      else none := by
  have judged := judgeReply_whole p a (head := (1#2) ++ address) (rest := [flags, hiByte ratedLoad, loByte ratedLoad,
    hiByte ratedSpeed, loByte ratedSpeed]) crc (by rw [replyLength, kind_head]; rfl)
  refine judged.trans ?_
  simp only [kind_head, address_head]
  cases p.frame <;> simp [PollFrame.replyKind]

theorem judgeReply_early (p : PollInFlight) (a : Nat) (bytes : List Byte) : judgeReply p true a bytes = some .early := rfl

/-- The length of a reply by its head byte (R184). -/
theorem replyLength_eq (head : Byte) :
    replyLength head = if head.toNat < 64 then some 10 else if head.toNat < 128 then some 8 else none := by
  revert head; decide

/-- The judging of a frame that began in time and that a gap ended before its whole length (R149). -/
theorem judgeReply_short (p : PollInFlight) (a : Nat) {head : Byte} {rest : List Byte}
    (hs : head.toNat < 64 ∧ rest.length < 9 ∨ 64 ≤ head.toNat ∧ head.toNat < 128 ∧ rest.length < 7 ∨ 128 ≤ head.toNat) :
    judgeReply p false a (head :: rest) = some .length := by
  have short : replyLength head ≠ some (head :: rest).length := by
    rw [replyLength_eq, List.length_cons]
    split_ifs <;> simp <;> omega
  unfold judgeReply
  dsimp only
  rw [if_neg Bool.false_ne_true, if_pos (by simpa using short)]

/-! ### The end of a poll that waits, and of one whose reply arrives (R149, R153) -/

theorem State.takeResponseExpiry_awaiting {left : Nat} (hp : s.link.poll = some p) (hst : p.stage = .awaiting left) :
    s.takeResponseExpiry = (if p.orphaned then s else s.miss p.slot .timeout).endPoll p.slot (30 - p.timeout) := by
  simp only [State.takeResponseExpiry, hp, hst]
  rfl

theorem State.takeFrame_orphaned {early : Bool} (hp : s.link.poll = some p) (hst : p.stage = .receiving early)
    (ho : p.orphaned = true) (bytes : List Byte) (rest : Nat) :
    s.takeFrame bytes rest = (s.endPoll p.slot rest).deliverWaiting := by
  simp [State.takeFrame, hp, hst, ho]

/-- A frame that fails a check ends its poll with the miss of the first one. -/
theorem State.takeFrame_missed {early : Bool} {bytes : List Byte} {reason : MissReason} (rest : Nat)
    (hp : s.link.poll = some p) (hst : p.stage = .receiving early) (ho : p.orphaned = false)
    (hr : s.record p.slot = some h) (hj : judgeReply p early h.address bytes = some reason) :
    s.takeFrame bytes rest = ((s.miss p.slot reason).endPoll p.slot rest).deliverWaiting := by
  simp [State.takeFrame, hp, hst, ho, State.judgeAndTake, hr, hj]

/-- With no poll open a frame is discarded; the rest of an aborted reply leaves the line quiet (R155). -/
theorem State.takeFrame_noPoll (hp : s.link.poll = none) (bytes : List Byte) (rest : Nat) :
    s.takeFrame bytes rest =
      if s.link.line = .discarding then
        { s with link := { s.link with line := .quiet, gap := rest, lineGap := rest } }
      else s := by
  simp only [State.takeFrame, hp]
  split
  · rw [State.modLink, Link.endDiscard, hp]
  · rfl

/-- Settles O56: the stage of the poll decides how it ends, and the order of the checks which miss it is. -/
theorem pollsEndWithoutReply : Obligations.PollsEndWithoutReply := by
  refine ⟨fun s p hp => ?_, fun s address flags echo height load crc ratedLoad ratedSpeed bytes hp => ?_⟩
  · intro ended
    have missed : ∀ {early : Bool} {h : Hoist} {bytes : List Byte} {reason : MissReason} (rest : Nat),
        p.stage = .receiving early → p.orphaned = false → s.record p.slot = some h →
        judgeReply p early h.address bytes = some reason →
        complete (s.takeFrame bytes rest) = ended (s.miss p.slot reason) rest :=
      fun rest hst ho hr hj => congrArg complete (State.takeFrame_missed rest hp hst ho hr hj)
    refine ⟨fun left hst ho => ?_, fun early h address flags echo height load crc ratedLoad ratedSpeed hst ho hr => ?_,
      fun h bytes hst ho hr => missed 0 hst ho hr (judgeReply_early ..),
      fun h head rest hst ho hr hs => missed 0 hst ho hr (judgeReply_short p _ hs), fun left hst ho => ?_,
      fun early address flags echo height load crc ratedLoad ratedSpeed bytes hst ho => ?_⟩
    · exact congrArg complete ((State.takeResponseExpiry_awaiting hp hst).trans (by rw [ho]; rfl))
    · intro status ident statusBody identBody
      refine ⟨fun he => ?_, fun he => ?_⟩ <;> subst he
      · exact ⟨missed 30 hst ho hr (judgeReply_early ..), missed 30 hst ho hr (judgeReply_early ..)⟩
      · have status_missed : ∀ {reason}, (if crc ≠ crc16 statusBody then some .crc
            else if address.toNat ≠ h.address then some .address
            else if p.frame = .ident then some .kind
            else if echo.getLsbD 7 ≠ p.seqBit then some .stale
            else if 500000 < height.toNat then some .range
            else none) = some reason → status = ended (s.miss p.slot reason) 30 :=
          fun hj => missed 30 hst ho hr ((judgeReply_status ..).trans hj)
        have ident_missed : ∀ {reason}, (if crc ≠ crc16 identBody then some .crc
            else if address.toNat ≠ h.address then some .address
            else if p.frame = .run then some .kind
            else none) = some reason → ident = ended (s.miss p.slot reason) 30 :=
          fun hj => missed 30 hst ho hr ((judgeReply_ident ..).trans hj)
        refine ⟨fun hc => status_missed (if_pos hc), fun hc => ident_missed (if_pos hc),
          fun ha => ⟨fun hc => status_missed ?_, fun hc => ident_missed ?_⟩,
          fun ha => ⟨fun hc hf => ident_missed ?_, fun hc hf => status_missed ?_,
            fun hc hf => ⟨fun hs => status_missed ?_, fun hs hh => status_missed ?_⟩⟩⟩
        · rw [if_neg (not_not.2 hc), if_pos ha]
        · rw [if_neg (not_not.2 hc), if_pos ha]
        · rw [if_neg (not_not.2 hc), if_neg (not_not.2 ha), if_pos hf]
        · rw [if_neg (not_not.2 hc), if_neg (not_not.2 ha), if_pos hf]
        · rw [if_neg (not_not.2 hc), if_neg (not_not.2 ha), if_neg (by simp [hf]), if_pos hs]
        · rw [if_neg (not_not.2 hc), if_neg (not_not.2 ha), if_neg (by simp [hf]), if_neg (not_not.2 hs), if_pos hh]
    · exact congrArg complete ((State.takeResponseExpiry_awaiting hp hst).trans (by rw [ho]; rfl))
    · have orphaned : ∀ (bytes : List Byte) (rest : Nat), complete (s.takeFrame bytes rest) = ended s rest :=
        fun bytes rest => congrArg complete (State.takeFrame_orphaned hp hst ho bytes rest)
      exact ⟨orphaned _ 30, orphaned _ 30, orphaned _ 0⟩
  · intro quiet
    refine ⟨fun hl => ?_, fun hl => ?_⟩
    · have discarded : ∀ (bytes : List Byte) (rest : Nat), complete (s.takeFrame bytes rest) = quiet rest :=
        fun bytes rest => congrArg complete ((State.takeFrame_noPoll hp bytes rest).trans (if_pos hl))
      exact ⟨discarded _ 30, discarded _ 30, discarded _ 0⟩
    · have ignored : ∀ (bytes : List Byte) (rest : Nat), complete (s.takeFrame bytes rest) = .next s.repace :=
        fun bytes rest => congrArg complete ((State.takeFrame_noPoll hp bytes rest).trans (if_neg hl))
      exact ⟨ignored _ 30, ignored _ 30, ignored _ 0⟩

end Sys2Proof.Machine

/-! ## The phase of the transaction does not matter to a command's owner

A console command is taken from the command phase, or at the end of its argument bytes (R164): its owner's work is the
same. -/

namespace Sys2Proof.Machine

/-- The state with another phase of the transaction and another byte on MISO. -/
def State.inPhase (ph : Phase) (m : Option Byte) (s : State) : State :=
  { s with port := { s.port with phase := ph, miso := m } }

/-! ### The phase and the tables -/

section Fields
variable (ph : Phase) (m : Option Byte) (s : State)

theorem State.eventsWaiting_inPhase : (s.inPhase ph m).eventsWaiting = s.eventsWaiting := rfl
theorem State.link_inPhase : (s.inPhase ph m).link = s.link := rfl
theorem State.safety_inPhase : (s.inPhase ph m).safety = s.safety := rfl
theorem State.port_inPhase : (s.inPhase ph m).port = { s.port with phase := ph, miso := m } := rfl
theorem State.record_inPhase (i : Slot) : (s.inPhase ph m).record i = s.record i := rfl
theorem State.group_inPhase (k : GroupId) : (s.inPhase ph m).group k = s.group k := rfl
theorem State.normalHeights_inPhase (k : GroupId) : (s.inPhase ph m).normalHeights k = s.normalHeights k := rfl

theorem State.modGroup_inPhase (k : GroupId) (f : Group → Group) :
    (s.inPhase ph m).modGroup k f = (s.modGroup k f).inPhase ph m := rfl

theorem State.modRecord_inPhase (i : Slot) (f : Hoist → Hoist) :
    (s.inPhase ph m).modRecord i f = (s.modRecord i f).inPhase ph m := rfl

theorem State.modSlot_inPhase (i : Slot) (f : SlotEntry → SlotEntry) :
    (s.inPhase ph m).modSlot i f = (s.modSlot i f).inPhase ph m := rfl

theorem State.slotAttention_inPhase (i : Slot) :
    (s.inPhase ph m).slotAttention i = (s.slotAttention i).inPhase ph m := rfl

theorem State.modLink_inPhase (f : Link → Link) : (s.inPhase ph m).modLink f = (s.modLink f).inPhase ph m := rfl

theorem State.mapSlots_inPhase (f : Slot → SlotEntry → SlotEntry) :
    (s.inPhase ph m).mapSlots f = (s.mapSlots f).inPhase ph m := by
  simp only [State.mapSlots, State.inPhase]

theorem State.mapGroups_inPhase (f : Group → Group) :
    (s.inPhase ph m).mapGroups f = (s.mapGroups f).inPhase ph m := by
  simp only [State.mapGroups, State.inPhase]

theorem State.modMembers_inPhase (k : GroupId) (f : Hoist → Hoist) :
    (s.inPhase ph m).modMembers k f = (s.modMembers k f).inPhase ph m := State.mapSlots_inPhase ph m s _

end Fields

/-- A choice is mapped by mapping what is chosen. -/
theorem ite_eq_map {α β : Type} {f : α → β} {c : Prop} [Decidable c] {a b : α} {a' b' : β} (ha : a' = f a)
    (hb : b' = f b) : (if c then a' else b') = f (if c then a else b) := by
  split <;> assumption

/-! ### What GENG, HTAB, DLC and SLB do in any phase -/

variable {ph : Phase} {m : Option Byte} (s : State)

theorem State.testStop_inPhase (k : GroupId) : (s.inPhase ph m).testStop k = (s.testStop k).inPhase ph m := by
  unfold State.testStop
  exact ite_eq_map rfl rfl

theorem State.enterStopping_inPhase (k : GroupId) (cause : StopCause) (slot : Option Slot) (value : Option Int) :
    (s.inPhase ph m).enterStopping k cause slot value = (s.enterStopping k cause slot value).inPhase ph m := by
  simp only [State.enterStopping, State.modGroup_inPhase, State.modMembers_inPhase, State.testStop_inPhase]

theorem State.startMove_inPhase (k : GroupId) : (s.inPhase ph m).startMove k = (s.startMove k).inPhase ph m := by
  simp only [State.startMove, State.group_inPhase, State.normalHeights_inPhase, State.modGroup_inPhase,
    State.modMembers_inPhase]
  split <;> rfl

theorem State.conditionEvent_inPhase (k : GroupId) (i : Slot) (c : Cond) (value : Option Int) :
    (s.inPhase ph m).conditionEvent k i c value = (s.conditionEvent k i c value).inPhase ph m := by
  simp only [State.conditionEvent, State.group_inPhase, State.enterStopping_inPhase, State.modGroup_inPhase]
  split <;> rfl

theorem State.lossEvent_inPhase (k : GroupId) (i : Slot) (value : Option Int) :
    (s.inPhase ph m).lossEvent k i value = (s.lossEvent k i value).inPhase ph m := by
  simp only [State.lossEvent, State.group_inPhase, State.testStop_inPhase, State.conditionEvent_inPhase]
  split <;> rfl

theorem State.haltGroup_inPhase (k : GroupId) : (s.inPhase ph m).haltGroup k = (s.haltGroup k).inPhase ph m := by
  simp only [State.haltGroup, State.group_inPhase, State.enterStopping_inPhase, State.modGroup_inPhase]
  split <;> rfl

theorem State.startAll_inPhase (src : StartSource) : (s.inPhase ph m).startAll src = (s.startAll src).inPhase ph m := by
  refine List.foldl_hom (State.inPhase ph m) fun t k => ?_
  exact ite_eq_map (t.startMove_inPhase k) rfl

theorem State.settleRounds_inPhase : (s.inPhase ph m).settleRounds = s.settleRounds.inPhase ph m := by
  refine List.foldl_hom (State.inPhase ph m) fun t k => ?_
  simp only [State.settleRound, State.modGroup_inPhase, State.chainedStart, State.startAll_inPhase]
  exact ite_eq_map (ite_eq_map rfl rfl) rfl

theorem State.roundCompleted_inPhase : (s.inPhase ph m).roundCompleted = s.roundCompleted.inPhase ph m := by
  unfold State.roundCompleted
  rw [State.settleRounds_inPhase]
  generalize s.settleRounds = t
  rfl

theorem State.leaveSlot_inPhase (i : Slot) (h : Hoist) (cause : Release) :
    (s.inPhase ph m).leaveSlot i h cause = (s.leaveSlot i h cause).inPhase ph m := by
  rw [State.leaveSlot_eq, State.leaveSlot_eq]
  unfold State.slotReleased
  dsimp only [State.link_inPhase, State.eventsWaiting_inPhase]
  cases s.link.round with
  | stopped => rfl
  | between pace => exact ite_eq_map rfl rfl
  | inRound =>
    refine ite_eq_map ?_ rfl
    rw [← State.roundCompleted_inPhase]
    rfl

theorem State.enterPollList_inPhase (i : Slot) : (s.inPhase ph m).enterPollList i = (s.enterPollList i).inPhase ph m := by
  simp only [State.enterPollList, State.link_inPhase]
  split <;> rfl

theorem State.entered_inPhase (i : Slot) (h : Hoist) : (s.inPhase ph m).entered i h = (s.entered i h).inPhase ph m := by
  unfold State.entered
  rw [← State.enterPollList_inPhase]
  rfl

theorem State.leaveGroup_inPhase (i : Slot) : (s.inPhase ph m).leaveGroup i = (s.leaveGroup i).inPhase ph m := by
  simp only [State.leaveGroup, State.record_inPhase]
  split <;> rfl

theorem State.endJog_inPhase (cause : JogEndCause) : (s.inPhase ph m).endJog cause = (s.endJog cause).inPhase ph m := by
  simp only [State.endJog, State.safety_inPhase]
  split <;> rfl

theorem State.lose_inPhase (i : Slot) (h : Hoist) : (s.inPhase ph m).lose i h = (s.lose i h).inPhase ph m := by
  simp only [State.lose, State.modRecord_inPhase, State.modSlot_inPhase, State.slotAttention_inPhase,
    State.lossEvent_inPhase]
  cases h.group <;> exact ite_eq_map (State.endJog_inPhase _ _) rfl

theorem State.lowerCount_inPhase (new : Nat) (i : Slot) :
    (s.inPhase ph m).lowerCount new i = (s.lowerCount new i).inPhase ph m := by
  simp only [State.lowerCount, State.record_inPhase, State.modRecord_inPhase, State.lose_inPhase]
  split
  · rfl
  · exact ite_eq_map rfl (ite_eq_map rfl rfl)

theorem State.raiseCount_inPhase (new : Nat) (i : Slot) :
    (s.inPhase ph m).raiseCount new i = (s.raiseCount new i).inPhase ph m := ite_eq_map rfl rfl

theorem State.applyThreshold_inPhase (old new : Nat) :
    (s.inPhase ph m).applyThreshold old new = (s.applyThreshold old new).inPhase ph m :=
  ite_eq_map (List.foldl_hom (State.inPhase ph m) fun t i => t.lowerCount_inPhase new i)
    (ite_eq_map (List.foldl_hom (State.inPhase ph m) fun t i => t.raiseCount_inPhase new i) rfl)

theorem State.repost_inPhase (i : Slot) : (s.inPhase ph m).repost i = (s.repost i).inPhase ph m := by
  simp only [State.repost, State.record_inPhase, State.modGroup_inPhase]
  split
  · rfl
  · split <;> rfl

/-! ### The owners' work in any phase -/

/-- The owner's work on a command reads neither the phase of the transaction nor the byte on MISO, and keeps both. -/
def PhaseBlind (owner : State → State × Answer) : Prop :=
  ∀ (ph : Phase) (m : Option Byte) (s : State), owner (s.inPhase ph m) = Prod.map (State.inPhase ph m) id (owner s)

theorem Port.looked_inPhase (p : Port) (w : WalkPosition) (ph : Phase) (m : Option Byte) :
    Port.looked { p with phase := ph, miso := m } w = { p.looked w with phase := ph, miso := m } := by
  unfold Port.looked
  dsimp only
  split <;> rfl

theorem Port.lookTarget_inPhase (p : Port) (ph : Phase) (m : Option Byte) (kind block index : Byte) :
    Port.lookTarget { p with phase := ph, miso := m } kind block index = p.lookTarget kind block index := rfl

theorem State.block_inPhase (s : State) (ph : Phase) (m : Option Byte) (b : LookBlock) (n : Nat) :
    (s.inPhase ph m).block b n = s.block b n := by
  cases b <;> rfl

theorem phaseBlind_takeLook (kind block index : Byte) : PhaseBlind fun s => s.takeLook kind block index := by
  intro ph m s
  simp only [State.takeLook, State.block_inPhase, State.port_inPhase, State.modPort, Port.lookTarget_inPhase,
    Port.looked_inPhase]
  split <;> rfl

theorem phaseBlind_takeSummary : PhaseBlind State.takeSummary := fun _ _ _ => rfl

theorem phaseBlind_clearAttention (kind index : Byte) : PhaseBlind fun s => s.clearAttention kind index := by
  intro ph m s
  unfold State.clearAttention
  split
  · rfl
  · split <;> rfl
  · split <;> rfl
  · rfl

theorem phaseBlind_admitSlot (slot address : Byte) (lower upper trim : BitVec 16) :
    PhaseBlind fun s => s.admitSlot slot address lower upper trim := by
  intro ph m s
  unfold State.admitSlot
  split
  · rfl
  · exact ite_eq_map rfl (ite_eq_map rfl (ite_eq_map rfl (ite_eq_map rfl
      (congrArg (·, Answer.plain .ok) (s.entered_inPhase _ _)))))

theorem phaseBlind_amend (slot : Byte) (lower upper trim : BitVec 16) (overload underload shift : Byte)
    (jogDemand : BitVec 16) : PhaseBlind fun s => s.amend slot lower upper trim overload underload shift jogDemand := by
  intro ph m s
  simp only [State.amend, State.record_inPhase]
  split
  · rfl
  · split
    · rfl
    · exact ite_eq_map rfl (ite_eq_map rfl (ite_eq_map rfl rfl))

theorem phaseBlind_retire (slot : Byte) : PhaseBlind fun s => s.retire slot := by
  intro ph m s
  simp only [State.retire, State.record_inPhase, State.leaveGroup_inPhase, State.leaveSlot_inPhase]
  split
  · rfl
  · split
    · rfl
    · exact ite_eq_map rfl (ite_eq_map rfl (ite_eq_map rfl rfl))

theorem phaseBlind_assign (slot group : Byte) : PhaseBlind fun s => s.assign slot group := by
  intro ph m s
  simp only [State.assign, State.record_inPhase, State.leaveGroup_inPhase]
  split
  · split
    · rfl
    · refine ite_eq_map rfl (ite_eq_map rfl ?_)
      split
      · rfl
      · exact ite_eq_map rfl (ite_eq_map rfl rfl)
  · rfl

theorem phaseBlind_clearFlags (slot : Byte) : PhaseBlind fun s => s.clearFlags slot := by
  intro ph m s
  simp only [State.clearFlags, State.record_inPhase]
  split
  · rfl
  · split <;> rfl

theorem phaseBlind_setGroup (group level gain landing mask stepPeriod settle : Byte) (holdMs stopMs landMs : BitVec 16) :
    PhaseBlind fun s => s.setGroup group level gain landing mask stepPeriod settle holdMs stopMs landMs := by
  intro ph m s
  unfold State.setGroup
  split
  · rfl
  · exact ite_eq_map rfl rfl

theorem phaseBlind_queueCue (group : Byte) (target cruise accel : BitVec 16) (source after : Byte) :
    PhaseBlind fun s => s.queueCue group target cruise accel source after := by
  intro ph m s
  unfold State.queueCue
  split
  · rfl
  · refine ite_eq_map rfl ?_
    split
    · rfl
    · exact ite_eq_map rfl rfl

theorem phaseBlind_flush (group : Byte) : PhaseBlind fun s => s.flush group := by
  intro ph m s
  unfold State.flush
  split
  · rfl
  · exact ite_eq_map rfl rfl

theorem phaseBlind_arm (group : Byte) : PhaseBlind fun s => s.arm group := by
  intro ph m s
  unfold State.arm
  dsimp only [State.group_inPhase]
  split
  · rfl
  · refine ite_eq_map rfl ?_
    split
    · rfl
    · refine ite_eq_map rfl ?_
      split
      · rfl
      · exact ite_eq_map rfl (ite_eq_map rfl (ite_eq_map rfl (ite_eq_map rfl rfl)))

theorem phaseBlind_go (group : Byte) : PhaseBlind fun s => s.go group := by
  intro ph m s
  simp only [State.go, State.startMove_inPhase]
  split
  · rfl
  · exact ite_eq_map rfl rfl

theorem phaseBlind_holdJog : PhaseBlind State.holdJog := by
  intro ph m s
  exact ite_eq_map rfl rfl

theorem phaseBlind_holdGroup (k : GroupId) : PhaseBlind fun s => s.holdGroup k := by
  intro ph m s
  exact ite_eq_map rfl rfl

theorem phaseBlind_takeHold (group : Byte) : PhaseBlind fun s => s.takeHold group := by
  intro ph m s
  refine ite_eq_map (phaseBlind_holdJog ph m s) ?_
  split
  · exact phaseBlind_holdGroup _ ph m s
  · rfl

theorem phaseBlind_haltJog : PhaseBlind State.haltJog := by
  intro ph m s
  exact congrArg (·, Answer.plain .ok) (s.endJog_inPhase .halt)

theorem phaseBlind_takeHalt (group : Byte) : PhaseBlind fun s => s.takeHalt group := by
  intro ph m s
  refine ite_eq_map (phaseBlind_haltJog ph m s) ?_
  simp only [State.haltGroup_inPhase]
  split <;> rfl

theorem phaseBlind_stageSpeed (group : Byte) (cruise : BitVec 16) : PhaseBlind fun s => s.stageSpeed group cruise := by
  intro ph m s
  unfold State.stageSpeed
  split
  · rfl
  · exact ite_eq_map rfl rfl

theorem phaseBlind_stageTarget (group : Byte) (target : BitVec 16) : PhaseBlind fun s => s.stageTarget group target := by
  intro ph m s
  simp only [State.stageTarget, State.group_inPhase]
  split
  · rfl
  · split
    · exact ite_eq_map rfl (ite_eq_map rfl (ite_eq_map rfl rfl))
    · rfl

theorem phaseBlind_ackFault (group : Byte) : PhaseBlind fun s => s.ackFault group := by
  intro ph m s
  simp only [State.ackFault, State.group_inPhase]
  split
  · rfl
  · split
    · exact ite_eq_map rfl rfl
    · rfl
    · rfl

theorem phaseBlind_takeJog (slot direction : Byte) (distance : BitVec 16) :
    PhaseBlind fun s => s.takeJog slot direction distance := by
  intro ph m s
  simp only [State.takeJog, State.record_inPhase]
  split
  · rfl
  · split
    · rfl
    · refine ite_eq_map rfl ?_
      split
      · rfl
      · refine ite_eq_map rfl (ite_eq_map rfl (ite_eq_map rfl (ite_eq_map rfl ?_)))
        split
        · rfl
        · exact ite_eq_map rfl rfl

theorem phaseBlind_configureLink (timeout : BitVec 16) (threshold : Byte) (idle : BitVec 16) :
    PhaseBlind fun s => s.configureLink timeout threshold idle := by
  intro ph m s
  unfold State.configureLink
  refine ite_eq_map rfl ?_
  dsimp only
  rw [State.modLink_inPhase, State.applyThreshold_inPhase]
  rfl

theorem phaseBlind_takePermit : PhaseBlind State.takePermit := by
  intro ph m s
  exact ite_eq_map rfl rfl

theorem phaseBlind_takeRestart : PhaseBlind State.takeRestart := by
  intro ph m s
  have blocks : (s.inPhase ph m).restartBlocks = s.restartBlocks.inPhase ph m := by
    simp only [State.restartBlocks, State.mapSlots_inPhase, State.mapGroups_inPhase]
    rfl
  have all : (s.inPhase ph m).restartBlocks.repostAll = s.restartBlocks.repostAll.inPhase ph m := by
    rw [blocks]
    exact List.foldl_hom (State.inPhase ph m) fun t i => t.repost_inPhase i
  exact ite_eq_map rfl (congrArg (·, Answer.plain .ok) all)

end Sys2Proof.Machine

/-! ## A console command's row and its bytes -/

namespace Sys2Proof.Machine

variable {s : State}

/-! ### The bytes of a console command -/

theorem ConsoleCode.ofByte_toByte (code : ConsoleCode) : ConsoleCode.ofByte code.toByte = some code := by
  cases code <;> rfl

theorem ConsoleCode.toByte_injective {c d : ConsoleCode} (h : c.toByte = d.toByte) : c = d :=
  Option.some.inj (by rw [← ConsoleCode.ofByte_toByte c, ← ConsoleCode.ofByte_toByte d, h])

/-- No command code is the null byte or the continue byte (R163, R169, R173). -/
theorem ConsoleCode.toByte_ne (code : ConsoleCode) :
    code.toByte ≠ nullByteValue ∧ code.toByte ≠ continueByteValue := by
  cases code <;> decide

/-- The row is a console command with these argument bytes, as many as its code takes (R169, R182), and this work of its
owner, which the phase does not matter to. -/
structure ConsoleRow (c : Instr) (code : ConsoleCode) (args : List Byte) (owner : State → State × Answer) : Prop where
  blind : PhaseBlind owner
  length : args.length = code.argCount
  meaning : ∀ s, exec c s = complete (s.console code args owner)
  takes : ∀ s : State, s.ownerTakes code args = owner s

/-- What a row with bytes is: a single byte that is no command code, or a console command. -/
theorem consoleBytes_cases {c : Instr} {bytes : List Byte} (h : consoleBytes c = some bytes) :
    (∃ b, bytes = [b] ∧ (∀ code : ConsoleCode, code.toByte ≠ b) ∧ ∀ s, exec c s = complete (s.receiveByte b)) ∨
      ∃ code args owner, bytes = code.toByte :: args ∧ ConsoleRow c code args owner := by
  cases c with
  | continueByte => cases h; exact .inl ⟨_, rfl, fun code => (ConsoleCode.toByte_ne code).2, fun s => rfl⟩
  | nullByte => cases h; exact .inl ⟨_, rfl, fun code => (ConsoleCode.toByte_ne code).1, fun s => rfl⟩
  | look kind block index =>
    cases h; exact .inr ⟨.look, _, _, rfl, phaseBlind_takeLook kind block index, rfl, fun s => rfl, fun s => rfl⟩
  | summary => cases h; exact .inr ⟨.summary, _, _, rfl, phaseBlind_takeSummary, rfl, fun s => rfl, fun s => rfl⟩
  | clrattn kind index =>
    cases h; exact .inr ⟨.clrattn, _, _, rfl, phaseBlind_clearAttention kind index, rfl, fun s => rfl, fun s => rfl⟩
  | admitHoist slot address lower upper trim =>
    cases h
    exact .inr ⟨.admitHoist, _, _, rfl, phaseBlind_admitSlot slot address lower upper trim, rfl, fun s => rfl,
      fun s => by
        show s.admitSlot slot address (wordOf _ _) (wordOf _ _) (wordOf _ _) = _
        simp only [wordOf_hiByte_loByte]⟩
  | amend slot lower upper trim overload underload shift jogDemand =>
    cases h
    exact .inr ⟨.amend, _, _, rfl, phaseBlind_amend slot lower upper trim overload underload shift jogDemand, rfl,
      fun s => rfl, fun s => by
        show s.amend slot (wordOf _ _) (wordOf _ _) (wordOf _ _) overload underload shift (wordOf _ _) = _
        simp only [wordOf_hiByte_loByte]⟩
  | retire slot => cases h; exact .inr ⟨.retire, _, _, rfl, phaseBlind_retire slot, rfl, fun s => rfl, fun s => rfl⟩
  | assign slot group =>
    cases h; exact .inr ⟨.assign, _, _, rfl, phaseBlind_assign slot group, rfl, fun s => rfl, fun s => rfl⟩
  | clrflags slot =>
    cases h; exact .inr ⟨.clrflags, _, _, rfl, phaseBlind_clearFlags slot, rfl, fun s => rfl, fun s => rfl⟩
  | setgroup group level gain landing mask stepPeriod settle holdMs stopMs landMs =>
    cases h
    exact .inr ⟨.setgroup, _, _, rfl,
      phaseBlind_setGroup group level gain landing mask stepPeriod settle holdMs stopMs landMs, rfl, fun s => rfl,
      fun s => by
        show s.setGroup group level gain landing mask stepPeriod settle (wordOf _ _) (wordOf _ _) (wordOf _ _) = _
        simp only [wordOf_hiByte_loByte]⟩
  | queue group target cruise accel source after =>
    cases h
    exact .inr ⟨.queue, _, _, rfl, phaseBlind_queueCue group target cruise accel source after, rfl, fun s => rfl,
      fun s => by
        show s.queueCue group (wordOf _ _) (wordOf _ _) (wordOf _ _) source after = _
        simp only [wordOf_hiByte_loByte]⟩
  | flush group => cases h; exact .inr ⟨.flush, _, _, rfl, phaseBlind_flush group, rfl, fun s => rfl, fun s => rfl⟩
  | arm group => cases h; exact .inr ⟨.arm, _, _, rfl, phaseBlind_arm group, rfl, fun s => rfl, fun s => rfl⟩
  | go group => cases h; exact .inr ⟨.go, _, _, rfl, phaseBlind_go group, rfl, fun s => rfl, fun s => rfl⟩
  | hold group => cases h; exact .inr ⟨.hold, _, _, rfl, phaseBlind_takeHold group, rfl, fun s => rfl, fun s => rfl⟩
  | hold8 => cases h; exact .inr ⟨.hold, _, _, rfl, phaseBlind_holdJog, rfl, fun s => rfl, fun s => rfl⟩
  | halt group => cases h; exact .inr ⟨.halt, _, _, rfl, phaseBlind_takeHalt group, rfl, fun s => rfl, fun s => rfl⟩
  | halt8 => cases h; exact .inr ⟨.halt, _, _, rfl, phaseBlind_haltJog, rfl, fun s => rfl, fun s => rfl⟩
  | stagespd group cruise =>
    cases h
    exact .inr ⟨.stagespd, _, _, rfl, phaseBlind_stageSpeed group cruise, rfl, fun s => rfl,
      fun s => congrArg (s.stageSpeed group) (wordOf_hiByte_loByte cruise)⟩
  | stagetgt group target =>
    cases h
    exact .inr ⟨.stagetgt, _, _, rfl, phaseBlind_stageTarget group target, rfl, fun s => rfl,
      fun s => congrArg (s.stageTarget group) (wordOf_hiByte_loByte target)⟩
  | ackfault group =>
    cases h; exact .inr ⟨.ackfault, _, _, rfl, phaseBlind_ackFault group, rfl, fun s => rfl, fun s => rfl⟩
  | jog slot direction distance =>
    cases h
    exact .inr ⟨.jog, _, _, rfl, phaseBlind_takeJog slot direction distance, rfl, fun s => rfl,
      fun s => congrArg (s.takeJog slot direction) (wordOf_hiByte_loByte distance)⟩
  | linkcfg timeout threshold idle =>
    cases h
    exact .inr ⟨.linkcfg, _, _, rfl, phaseBlind_configureLink timeout threshold idle, rfl, fun s => rfl,
      fun s => by
        show s.configureLink (wordOf _ _) threshold (wordOf _ _) = _
        simp only [wordOf_hiByte_loByte]⟩
  | permit => cases h; exact .inr ⟨.permit, _, _, rfl, phaseBlind_takePermit, rfl, fun s => rfl, fun s => rfl⟩
  | restart => cases h; exact .inr ⟨.restart, _, _, rfl, phaseBlind_takeRestart, rfl, fun s => rfl, fun s => rfl⟩
  | _ => cases h

/-! ### Bytes received one after another -/

/-- The bytes as rows are the bytes received, each with the pace set after it (R146). -/
theorem sendBytes_eq (bytes : List Byte) (s : State) : sendBytes bytes s = .next (s.receiveBytes bytes) := by
  induction bytes generalizing s with
  | nil => rfl
  | cons b rest ih => exact ih (s.receiveByte b).repace

theorem State.receiveBytes_cons (s : State) (b : Byte) (rest : List Byte) :
    s.receiveBytes (b :: rest) = (s.receiveByte b).repace.receiveBytes rest := rfl

theorem State.Paced.repace (h : s.Paced) : s.repace = s :=
  s.repace_of_paced fun hr => s.quiet_iff.1 (h hr)

/-- After bytes that have been received the pace is set. -/
theorem State.receiveBytes_paced (s : State) (b : Byte) (rest : List Byte) : (s.receiveBytes (b :: rest)).Paced := by
  induction rest generalizing b s with
  | nil => exact State.repace_paced _
  | cons d rest ih => exact ih _ d

/-- Bytes that change nothing. -/
theorem State.receiveBytes_idle {t : State} (hb : ∀ b, t.receiveByte b = t) (hp : t.Paced) (bytes : List Byte) :
    t.receiveBytes bytes = t := by
  induction bytes with
  | nil => rfl
  | cons b rest ih => rw [State.receiveBytes_cons, hb, hp.repace, ih]

/-- A closed port disregards bytes (R168). -/
theorem State.receiveBytes_closed (h : s.port.phase = .closed) (b : Byte) (rest : List Byte) :
    s.receiveBytes (b :: rest) = s.repace := by
  have idle : ∀ t : State, t.port.phase = .closed → ∀ b, t.receiveByte b = t := fun t ht b => by
    rw [State.receiveByte, ht]
  rw [State.receiveBytes_cons, idle s h]
  exact State.receiveBytes_idle (idle _ (by rw [State.port_repace, h])) s.repace_paced rest

/-- In the ignoring phase every byte returns 0xA5 and is disregarded (R166). -/
theorem State.receiveBytes_ignoring (h : s.port.phase = .ignoring) (b : Byte) (rest : List Byte) :
    s.receiveBytes (b :: rest) = State.repace { s with port := { s.port with miso := some 0xA5 } } := by
  have byte : ∀ t : State, t.port.phase = .ignoring → ∀ b,
      t.receiveByte b = { t with port := { t.port with miso := some 0xA5 } } := fun t ht b => by
    rw [State.receiveByte, ht]
    rfl
  have returned : ∀ t : State, t.port.miso = some 0xA5 → { t with port := { t.port with miso := some 0xA5 } } = t :=
    fun t ht => by rw [← ht]
  rw [State.receiveBytes_cons, byte s h]
  refine State.receiveBytes_idle (fun b => ?_) (State.repace_paced _) rest
  have port := State.port_repace { s with port := { s.port with miso := some 0xA5 } }
  rw [byte _ (by rw [port]; exact h)]
  exact returned _ (by rw [port])

/-! ### The bytes of a whole command (R163, R164) -/

/-- An answer sets the phase and the byte on MISO (R165). -/
theorem respond_inPhase (ph : Phase) (m : Option Byte) (r : State × Answer) :
    respond (Prod.map (State.inPhase ph m) id r) = respond r := rfl

namespace ConsoleRow

variable {c : Instr} {code : ConsoleCode} {args : List Byte} {owner : State → State × Answer}
  (row : ConsoleRow c code args owner)
include row

/-- A command is taken alike in every phase. -/
theorem takeCommand_inPhase (ph : Phase) (m : Option Byte) (s : State) :
    (s.inPhase ph m).takeCommand code args = s.takeCommand code args := by
  rw [State.takeCommand, State.takeCommand, row.takes, row.takes]
  exact (congrArg respond (row.blind ph m s.dropWalk)).trans (respond_inPhase ..)

/-- The argument bytes that are still to come, the last of which takes the command. -/
theorem receiveBytes_arguments {got : List Byte} {b : Byte} {rest : List Byte} (hargs : args = got ++ b :: rest)
    (hph : s.port.phase = .arguments code got) (hs : s.Paced) :
    s.receiveBytes (b :: rest) = (s.takeCommand code args).repace := by
  induction rest generalizing s got b with
  | nil =>
    have last : ¬ got.length + 1 < code.argCount := by rw [← row.length, hargs]; simp
    rw [State.receiveBytes_cons, State.receiveByte, hph]
    dsimp only
    rw [State.argumentByte, if_neg last, ← hargs]
    rfl
  | cons d rest ih =>
    have more : got.length + 1 < code.argCount := by rw [← row.length, hargs]; simp
    have byte : s.receiveByte b = s.inPhase (.arguments code (got ++ [b])) (some turnaroundByte) := by
      rw [State.receiveByte, hph]
      exact if_pos more
    have paced : (s.inPhase (.arguments code (got ++ [b])) (some turnaroundByte)).Paced := hs.same rfl rfl rfl
    rw [State.receiveBytes_cons, byte, paced.repace, ih (got := got ++ [b]) (by simp [hargs]) rfl paced,
      row.takeCommand_inPhase]

/-- The bytes of a whole command: its code and then its argument bytes (R163, R164). -/
theorem receiveBytes_command (hph : s.port.phase = .command) (hs : s.Paced) :
    s.receiveBytes (code.toByte :: args) = (s.takeCommand code args).repace := by
  obtain ⟨notNull, notContinue⟩ := ConsoleCode.toByte_ne code
  have byte : s.receiveByte code.toByte = if code.argCount = 0 then s.takeCommand code []
      else s.inPhase (.arguments code []) (some turnaroundByte) := by
    rw [State.receiveByte, hph]
    dsimp only
    rw [State.commandByte, if_neg notNull, if_neg notContinue, ConsoleCode.ofByte_toByte]
    rfl
  cases hargs : args with
  | nil =>
    rw [State.receiveBytes_cons, byte, if_pos (by rw [← row.length, hargs]; rfl)]
    rfl
  | cons b rest =>
    have paced : (s.inPhase (.arguments code []) (some turnaroundByte)).Paced := hs.same rfl rfl rfl
    rw [State.receiveBytes_cons, byte, if_neg (by rw [← row.length, hargs]; simp), paced.repace,
      row.receiveBytes_arguments (got := []) hargs rfl paced, row.takeCommand_inPhase, hargs]

/-- Where the port stands at the command or in it, the row takes the command whole (log 6). -/
theorem exec_takes (h : s.port.phase = .command ∨ s.port.phase.awaitsRest code args = true) :
    exec c s = .next (s.takeCommand code args).repace := by
  rw [row.meaning, State.console, if_pos h, State.takeCommand, row.takes]
  rfl

/-- Anywhere else the row is its bytes. -/
theorem exec_receives (h : ¬ (s.port.phase = .command ∨ s.port.phase.awaitsRest code args = true)) :
    exec c s = .next (s.receiveBytes (code.toByte :: args)) := by
  rw [row.meaning, State.console, if_neg h, complete, (s.receiveBytes_paced _ _).repace]

end ConsoleRow

/-- The arguments phase stands in the command exactly where argument bytes of it are still to come. -/
theorem Phase.awaitsRest_iff (ph : Phase) (code : ConsoleCode) (args : List Byte) :
    ph.awaitsRest code args = true ↔ ∃ got rest, rest ≠ [] ∧ ph = .arguments code got ∧ args = got ++ rest := by
  constructor
  · intro h
    unfold Phase.awaitsRest at h
    split at h
    · next d got =>
      simp only [Bool.and_eq_true, beq_iff_eq, decide_eq_true_eq] at h
      obtain ⟨⟨rfl, hlt⟩, htake⟩ := h
      refine ⟨got, args.drop got.length, by simpa using hlt, rfl, ?_⟩
      conv_lhs => rw [← List.take_append_drop got.length args, htake]
    · cases h
  · rintro ⟨got, rest, hne, rfl, rfl⟩
    simpa [Phase.awaitsRest] using List.length_pos_iff.2 hne

/-- Settles O11: bytes that are still to come of a command end with its taking, which the phase does not matter to; in every
other phase the row is its bytes. -/
theorem commandRowEqualsItsBytes : Obligations.CommandRowEqualsItsBytes := by
  intro c bytes s hc paced begun
  have quiet : paced → s.Paced := fun hs hr => s.quiet_iff.2 (hs hr)
  suffices rows : (s.port.phase = .command → s.Paced → exec c s = .next (s.receiveBytes bytes)) ∧
      (∀ rest, begun rest → s.Paced → exec c s = .next (s.receiveBytes rest)) ∧
      (s.port.phase ≠ .command → (∀ rest, ¬ begun rest) → exec c s = .next (s.receiveBytes bytes)) ∧
      ∃ b rest, bytes = b :: rest by
    obtain ⟨command, arguments, other, b, rest, rfl⟩ := rows
    have outside : s.port.phase ≠ .command → (∀ code got, s.port.phase ≠ .arguments code got) →
        exec c s = .next (s.receiveBytes (b :: rest)) :=
      fun h1 h2 => other h1 fun _ ⟨_, code, got, h, _⟩ => h2 code got h
    simp only [sendBytes_eq]
    refine ⟨fun h hs => command h (quiet hs), fun r h hs => arguments r h (quiet hs), other, fun h => ?_, fun h => ?_⟩
    · rw [outside (by simp [h]) (by simp [h]), State.receiveBytes_closed h]
    · rw [outside (by simp [h]) (by simp [h]), State.receiveBytes_ignoring h]
  rcases consoleBytes_cases hc with ⟨b, rfl, hcode, hexec⟩ | ⟨code, args, owner, rfl, row⟩
  · refine ⟨fun _ _ => hexec s, fun rest ⟨_, code, got, _, hb⟩ => ?_, fun _ _ => hexec s, b, [], rfl⟩
    exact absurd (List.head_eq_of_cons_eq hb).symm (hcode code)
  · refine ⟨fun h hs => ?_, fun rest ⟨hne, d, got, hph, hb⟩ hs => ?_, fun h hrest => ?_, code.toByte, args, rfl⟩
    · rw [row.exec_takes (.inl h), row.receiveBytes_command h hs]
    · obtain ⟨hcode, hargs⟩ := List.cons.inj hb
      obtain rfl := ConsoleCode.toByte_injective hcode
      obtain ⟨b, more, rfl⟩ := List.exists_cons_of_ne_nil hne
      rw [row.exec_takes (.inr ((Phase.awaitsRest_iff ..).2 ⟨got, _, hne, hph, hargs⟩)),
        row.receiveBytes_arguments hargs hph hs]
    · refine row.exec_receives (not_or.2 ⟨h, fun hw => ?_⟩)
      obtain ⟨got, rest, hne, hph, hargs⟩ := (Phase.awaitsRest_iff ..).1 hw
      exact hrest rest ⟨hne, code, got, hph, by rw [hargs]⟩

end Sys2Proof.Machine

/-! ## The port in every step

The laws of the port hang on no other law of the state: the events of the lines, the link and the clock leave the port
whatever the state is like. -/

namespace Sys2Proof.Machine

/-! ### The port under a reply and its absence -/

section Replies
variable (s : State)

theorem State.port_leaveSlotNoted (i : Slot) (h : Hoist) (cause : Release) :
    (s.leaveSlotNoted i h cause).port = s.port :=
  (State.leaveSlot_spec (s.slotAttention i) i h cause).2.2.2.port

theorem State.port_lose (i : Slot) (h : Hoist) : (s.lose i h).port = s.port := by
  unfold State.lose
  have hu : ∀ t : State, (match h.group with
      | some k => t.lossEvent k i (some h.missCount)
      | none => t).port = t.port := fun t => by
    split
    · exact (t.lossEvent_tables ..).port
    · rfl
  dsimp only
  split
  · exact (State.endJog_kept ..).port.trans (hu _)
  · exact hu _

theorem State.port_thresholdEvent (i : Slot) (h : Hoist) : (s.thresholdEvent i h).port = s.port := by
  unfold State.thresholdEvent
  split
  · exact s.port_leaveSlotNoted i h _
  · exact s.port_leaveSlotNoted i h _
  · rfl
  all_goals exact s.port_lose i h

theorem State.port_miss (i : Slot) (reason : MissReason) : (s.miss i reason).port = s.port := by
  unfold State.miss
  dsimp only
  split
  · rfl
  · split
    · exact State.port_thresholdEvent ..
    · rfl

theorem State.port_statusTransition (i : Slot) (flags : Byte) : (s.statusTransition i flags).port = s.port := by
  unfold State.statusTransition
  split
  · rfl
  · split
    · split <;> rfl
    · rfl
    · split
      · exact s.port_leaveSlotNoted ..
      · rfl
    all_goals rfl

theorem State.port_handed (i : Slot) (k : Option GroupId) (before after stopped : Bool) :
    (s.handed i k before after stopped).port = s.port := by
  have work := (s.handed_work i k before after stopped).tables.port
  unfold State.handed
  rcases State.jogProgress_cases (((s.handCondition i).handLanded k before after).handStopped k stopped) i with
    e | ⟨-, cause, -, -, e⟩ <;> rw [e]
  · exact work
  · exact (State.endJog_kept ..).port.trans work

theorem State.port_evaluate (i : Slot) (stopped : Bool) : (s.evaluate i stopped).port = s.port := by
  cases hr : s.record i with
  | none => simp [State.evaluate, hr]
  | some h =>
    rcases State.evaluate_cases hr stopped with ⟨-, e⟩ | ⟨ev, -, e | e⟩ <;> rw [e]
    · exact State.port_handed ..
    · exact State.port_handed ..
    · rfl

theorem State.port_takeStatus (i : Slot) (flags : Byte) (height load : Nat) :
    (s.takeStatus i flags height load).port = s.port :=
  (State.port_evaluate ..).trans (State.port_statusTransition ..)

theorem State.port_takeIdent (i : Slot) (flags : Byte) (ratedLoad ratedSpeed : Nat) :
    (s.takeIdent i flags ratedLoad ratedSpeed).port = s.port := by
  unfold State.takeIdent
  dsimp only
  split
  · rfl
  · split
    · rfl
    · exact State.port_leaveSlotNoted ..

theorem State.port_judgeAndTake (p : PollInFlight) (early : Bool) (bytes : List Byte) :
    (s.judgeAndTake p early bytes).port = s.port := by
  unfold State.judgeAndTake State.applyReply
  split
  · rfl
  · split
    · exact s.port_miss ..
    · split
      · exact s.port_miss ..
      · split
        · exact s.port_takeStatus ..
        · exact s.port_takeIdent ..

/-! ### The port under the events of the link and of GENG's timers -/

theorem State.port_takeFrame (bytes : List Byte) (rest : Nat) : (s.takeFrame bytes rest).port = s.port := by
  unfold State.takeFrame
  split
  · split
    · rw [(State.deliverWaiting_spec _).2.2.1, (State.endPoll_kept ..).port]
      split
      · rfl
      · exact s.port_judgeAndTake ..
    all_goals rfl
  · split <;> rfl

theorem State.port_takeResponseExpiry : s.takeResponseExpiry.port = s.port := by
  unfold State.takeResponseExpiry
  split
  · split
    · rw [(State.endPoll_kept ..).port]
      split
      · rfl
      · exact s.port_miss ..
    all_goals rfl
  · rfl

theorem State.port_takeFirstStartBit (elapsed : Nat) : (s.takeFirstStartBit elapsed).port = s.port := by
  unfold State.takeFirstStartBit
  split
  · split
    · split
      · rfl
      · exact s.port_takeResponseExpiry
    all_goals rfl
  · rfl

theorem State.port_deliverEvents : s.deliverEvents.port = s.port := s.deliverEvents_spec.2.2.2.2.port

theorem State.port_takeHoldExpiry (k : GroupId) : (s.takeHoldExpiry k).port = s.port := by
  unfold State.takeHoldExpiry
  split
  · exact (s.loseHold_tables k).port
  · rfl

theorem State.port_takeLandingExpiry (k : GroupId) : (s.takeLandingExpiry k).port = s.port := by
  have expiry (t : State) : (if (t.group k).landingTimer.isSome then t.landingExpiry k else t).port = t.port := by
    split
    · exact (t.landingExpiry_work k).tables.port
    · rfl
  unfold State.takeLandingExpiry
  refine (expiry _).trans ?_
  split
  · exact s.port_deliverEvents
  · rfl

theorem State.port_takeStopExpiry (k : GroupId) : (s.takeStopExpiry k).port = s.port := by
  unfold State.takeStopExpiry
  split
  · exact (s.stopExpiry_work k).tables.port
  · rfl

theorem State.port_takeRoundStart : s.takeRoundStart.port = s.port := by
  unfold State.takeRoundStart
  split
  · split
    · rfl
    · split <;> rfl
  · rfl

theorem State.port_pollNext : s.pollNext.port = s.port := by
  unfold State.pollNext
  split
  · split
    · rfl
    · split <;> rfl
  · rfl

theorem State.port_takeEndOfPoll : s.takeEndOfPoll.port = s.port := by
  unfold State.takeEndOfPoll
  split
  · split <;> rfl
  · rfl

/-! ### The port under the edges of the lines -/

theorem State.port_releaseEstop : s.releaseEstop.port = s.port := by
  unfold State.releaseEstop
  split <;> rfl

theorem State.port_riseCue (line : CueLine) : (s.riseCue line).port = s.port := by
  unfold State.riseCue
  split
  · rfl
  · exact (State.startAll_tables _ _).port

theorem State.port_fallCue (line : CueLine) : (s.fallCue line).port = s.port := by
  rcases s.fallCue_cases line with e | h
  · rw [e]
  · exact h.work.tables.port

end Replies

/-- The events of the lines, the link and the clock leave the port. -/
theorem KeptByEvents.of_port {P : Port → Prop} (reset : ∀ csLow, P (Port.reset csLow)) :
    KeptByEvents fun s => P s.port := by
  have same : ∀ {s t : State}, t.port = s.port → P s.port → P t.port := fun e h => e ▸ h
  exact {
    pending := fun _ _ => id
    repace := fun s => same s.port_repace
    endJog := fun s cause => same (s.endJog_kept cause).port
    takeEstopAssertion := fun s => same s.port_takeEstopAssertion
    deliverWaiting := fun s => same s.deliverWaiting_spec.2.2.1
    deliverEvents := fun s => same s.port_deliverEvents
    releaseEstop := fun s _ => same s.port_releaseEstop
    riseCue := fun s line => same (s.port_riseCue line)
    fallCue := fun s line => same (s.port_fallCue line)
    takeStepExpiry := fun _ _ h _ ht => same (State.port_takeStepExpiry ht) h
    takeHoldExpiry := fun s k => same (s.port_takeHoldExpiry k)
    takeLandingExpiry := fun s k => same (s.port_takeLandingExpiry k)
    takeStopExpiry := fun s k => same (s.port_takeStopExpiry k)
    takeResponseExpiry := fun s => same s.port_takeResponseExpiry
    takeRoundStart := fun s => same s.port_takeRoundStart
    pollNext := fun s _ => same s.port_pollNext
    takeEndOfPoll := fun s => same s.port_takeEndOfPoll
    takeHaltAll := fun s => same (by unfold State.takeHaltAll; split <;> rfl)
    takeFrame := fun s bytes rest => same (s.port_takeFrame bytes rest)
    takeFirstStartBit := fun s elapsed => same (s.port_takeFirstStartBit elapsed)
    count := fun s => same s.port_count
    afterReset := fun _ _ _ csLow _ _ _ => reset csLow }

/-- A console command's row, whose owner works in an open transaction. -/
theorem State.port_console {s : State} (hs : s.port.Ok) (code : ConsoleCode) (args : List Byte)
    {owner : State → State × Answer} (ho : ∀ t : State, t.port.Open → (owner t).1.port.Open) :
    (s.console code args owner).port.Ok := by
  unfold State.console
  split
  · next hc =>
    have hopen : s.port.phase ≠ .closed := by
      intro e
      rw [e] at hc
      rcases hc with hc | hc <;> cases hc
    exact (Port.Open.respond (ho s.dropWalk ⟨hs.dropWalk, hopen⟩)).1
  · exact State.port_receiveBytes hs _

/-- Settles O10: the events leave the port, the console's bytes and edges keep its laws, and so do the owners of the
console's commands, who work in an open transaction. -/
theorem stepKeepsPort : Obligations.StepKeepsPort := fun s t hs he => by
  have events : KeptByEvents fun s => s.port.Ok :=
    .of_port (P := Port.Ok) fun csLow => (resetMeetsInvariant false false false csLow).port
  unfold Machine.step at he
  split at he
  · cases he
    exact events.tick hs
  · next c rest _ =>
    have hp : State.port { s with pending := rest } |>.Ok := hs
    generalize ({ s with pending := rest } : State) = u at hp he
    exact events.exec hp open_kept (fun code args _ ho => State.port_console hp code args ho)
      (State.port_receiveByte hp) (State.port_takeCsFall hp) (State.port_takeCsRise hp) c he

end Sys2Proof.Machine

/-! ## LOOK, the continue byte and CLRATTN -/

namespace Sys2Proof.Machine

variable {s : State}

/-! ### What LOOK names (R170, R171) -/

theorem lookKindOf_iff (kind : Byte) (k : LookKind) : lookKindOf kind = some k ↔ kind = k.code := by
  constructor
  · intro h
    unfold lookKindOf at h
    (repeat' split at h) <;> cases h <;> assumption
  · rintro rfl
    cases k <;> rfl

/-- A kind's blocks, by their codes. -/
theorem lookBlockOf_iff (k : LookKind) (block : Byte) (b : LookBlock) :
    lookBlockOf k block = some b ↔ b.kind = k ∧ block = b.code := by
  constructor
  · intro h
    refine ⟨kind_lookBlockOf h, ?_⟩
    unfold lookBlockOf at h
    split at h <;> (repeat' split at h) <;> cases h <;> assumption
  · rintro ⟨rfl, rfl⟩
    cases b <;> rfl

/-- The index of a kind of several records: its own, or the cursor's start for 0xFF, which is no index of its own. -/
theorem indexOrCursor_iff {index : Byte} {start count n : Nat} (hc : count ≤ 255) :
    (if index = 0xFF then (if start < count then some start else none)
      else if index.toNat < count then some index.toNat else none) = some n ↔
      n < count ∧ (index.toNat = n ∨ index = 0xFF ∧ start = n) := by
  by_cases hi : index = 0xFF
  · have own : index.toNat = 255 := by rw [hi]; rfl
    rw [if_pos hi, Option.ite_none_right_eq_some, Option.some.injEq, own]
    simp only [hi, true_and]
    constructor <;> intro h <;> omega
  · rw [if_neg hi, Option.ite_none_right_eq_some, Option.some.injEq]
    simp only [hi, false_and, or_false]
    constructor <;> intro h <;> omega

theorem Port.lookIndex_iff (p : Port) (b : LookBlock) (index : Byte) (n : Nat) :
    p.lookIndex b.kind index = some n ↔ p.indexNames b index n := by
  unfold Port.lookIndex Port.indexNames
  cases b.kind with
  | hoist => simpa using indexOrCursor_iff (count := LookKind.hoist.count) (by decide)
  | group => simpa using indexOrCursor_iff (count := LookKind.group.count) (by decide)
  | device => simp [LookKind.count, eq_comm]

/-- LOOK's checks 1 to 4: the record and the block that its three bytes name. -/
theorem Port.lookTarget_iff (p : Port) (kind block index : Byte) (w : WalkPosition) :
    p.lookTarget kind block index = some w ↔
      kind = w.block.kind.code ∧ block = w.block.code ∧ p.indexNames w.block index w.index := by
  rw [← Port.lookIndex_iff, ← lookKindOf_iff]
  unfold Port.lookTarget
  constructor
  · intro h
    split at h
    · cases h
    · next k hk =>
      split at h
      · cases h
      · next b hb =>
        obtain ⟨rfl, rfl⟩ := (lookBlockOf_iff ..).1 hb
        split at h
        · cases h
        · next n hn =>
          cases h
          exact ⟨hk, rfl, hn⟩
  · rintro ⟨hk, hb, hn⟩
    rw [hk]
    dsimp only
    rw [(lookBlockOf_iff ..).2 ⟨rfl, hb⟩]
    dsimp only
    rw [hn]

/-! ### LOOK and the continue byte -/

theorem State.block_dropWalk (s : State) (b : LookBlock) (n : Nat) : s.dropWalk.block b n = s.block b n := by
  cases b <;> rfl

/-- Settles O12: LOOK's checks name a record exactly where the statement does (`lookTarget_iff`), so elsewhere it
refuses. -/
theorem lookReadsNamedRecord : Obligations.LookReadsNamedRecord := by
  refine ⟨fun s b index n hp hn => ?_, fun s kind block index hp hn => ?_⟩
  · have ht : s.dropWalk.port.lookTarget b.kind.code b.code index = some ⟨b, n⟩ :=
      (Port.lookTarget_iff ..).2 ⟨rfl, rfl, hn⟩
    show complete (s.console .look _ _) = _
    rw [console_command hp, State.takeLook, ht]
    dsimp only
    rw [State.block_dropWalk, complete]
    cases hf : s.port.firstLook <;>
      simp [respond, State.modPort, State.dropWalk, Port.looked, Port.answered, hf]
  · have ht : s.dropWalk.port.lookTarget kind block index = none :=
      Option.eq_none_iff_forall_ne_some.2 fun w hw => by
        obtain ⟨hk, hb, hi⟩ := (Port.lookTarget_iff ..).1 hw
        exact hn w.block w.index hk hb hi
    refine complete_console hp ?_
    rw [State.takeLook, ht]
    rfl

/-- The next record of a walk, wrapping after the last one of its kind (R173). -/
theorem Port.continueTarget_eq {p : Port} (h : ∀ w ∈ p.walk, w.index < w.block.kind.count) :
    p.continueTarget = match p.walk with
      | some v => if v.index + 1 = v.block.kind.count then ⟨v.block, 0⟩ else ⟨v.block, v.index + 1⟩
      | none => ⟨p.cursorBlock, p.cursorStart⟩ := by
  unfold Port.continueTarget
  cases hw : p.walk with
  | none => rfl
  | some v =>
    have hv := h v hw
    dsimp only
    split
    · next hl => rw [hl, Nat.mod_self]
    · next hl => rw [Nat.mod_eq_of_lt (by omega)]

/-- The byte 0x5A in the command phase (R173). -/
theorem State.receiveByte_continue (hp : s.port.phase = .command) :
    s.receiveByte continueByteValue = respond s.takeContinue := by
  rw [State.receiveByte, hp]
  rfl

/-- Settles O13: within the kind's range the next index modulo the count is the next one, or 0 after the last. -/
theorem continueWalksRecords : Obligations.ContinueWalksRecords := by
  intro s hp hw
  refine ⟨s.port.continueTarget, Port.continueTarget_eq hw, ?_⟩
  show complete (s.receiveByte continueByteValue) = _
  rw [State.receiveByte_continue hp]
  rfl

/-! ### CLRATTN -/

/-- Settles O16, kind by kind; what no kind or no index names is refused. -/
theorem clrattnClearsNamedFlag : Obligations.ClrattnClearsNamedFlag := by
  intro s index hp
  have range : ∀ kind, s.dropWalk.clearAttention kind index = (s.dropWalk, ⟨.range, []⟩) →
      exec (.clrattn kind index) s = .next (s.answering .range []) := fun kind h => complete_console hp h
  refine ⟨fun i hi => complete_console (t := s.setSlot i { s.slot i with attention := false }) hp ?_,
    fun k hk => complete_console (t := s.withGroup k { s.group k with attention := false }) hp ?_,
    complete_console (t := { s with safety := { s.safety with estopSeen := false, estopCleared := false } }) hp rfl,
    fun hi => range 0 ?_, fun hk => range 1 ?_, fun kind hk => range kind ?_⟩
  · rw [State.clearAttention, (lookKindOf_iff 0 .hoist).2 rfl]
    dsimp only
    rw [slotOf_eq hi]
    rfl
  · rw [State.clearAttention, (lookKindOf_iff 1 .group).2 rfl]
    dsimp only
    rw [groupOf_eq hk]
    rfl
  · rw [State.clearAttention, (lookKindOf_iff 0 .hoist).2 rfl]
    dsimp only
    rw [slotOf_none hi]
    rfl
  · rw [State.clearAttention, (lookKindOf_iff 1 .group).2 rfl]
    dsimp only
    rw [groupOf_none hk]
    rfl
  · have none : lookKindOf kind = none := Option.eq_none_iff_forall_ne_some.2 fun k h => by
      rw [(lookKindOf_iff ..).1 h] at hk
      cases k <;> exact absurd hk (by decide)
    rw [State.clearAttention, none]
    rfl

end Sys2Proof.Machine

/-! ## The bytes of a transaction and the edges of CS_N -/

namespace Sys2Proof.Machine

variable {s : State}

/-- A byte that no command code is (R166). -/
theorem ConsoleCode.ofByte_none {b : Byte} (h : ∀ c : ConsoleCode, c.toByte ≠ b) : ConsoleCode.ofByte b = none := by
  unfold ConsoleCode.ofByte
  rw [List.find?_eq_none]
  intro c _
  simpa using h c

/-- Whichever row carries a byte, the byte is received. -/
theorem exec_byte {row : Instr} {b : Byte} (h : row = .argumentByte b ∨ row = .responseByte b ∨
    row = .unknownCommandByte b ∨ row = .nullByte ∧ b = 0x00 ∨ row = .continueByte ∧ b = 0x5A) (s : State) :
    exec row s = .next (s.receiveByte b).repace := by
  rcases h with rfl | rfl | rfl | ⟨rfl, rfl⟩ | ⟨rfl, rfl⟩ <;> rfl

section Received
variable (b : Byte)

theorem State.receiveByte_closed (hp : s.port.phase = .closed) : s.receiveByte b = s := by
  rw [State.receiveByte, hp]

theorem State.receiveByte_command (hp : s.port.phase = .command) : s.receiveByte b = s.commandByte b := by
  rw [State.receiveByte, hp]

/-- An argument byte that is not the last (R164). -/
theorem State.receiveByte_arguments {c : ConsoleCode} {got : List Byte} (hp : s.port.phase = .arguments c got)
    (hl : got.length + 1 < c.argCount) :
    s.receiveByte b = { s with port := { s.port with phase := .arguments c (got ++ [b]), miso := some 0xA5 } } := by
  rw [State.receiveByte, hp]
  exact if_pos hl

theorem State.receiveByte_response {next : Byte} {rest : List Byte} {thenIgnore : Bool}
    (hp : s.port.phase = .response next rest thenIgnore) :
    s.receiveByte b = { s with port := s.port.returnByte next rest thenIgnore } := by
  rw [State.receiveByte, hp]
  rfl

theorem State.receiveByte_ignoring (hp : s.port.phase = .ignoring) :
    s.receiveByte b = { s with port := { s.port with miso := some 0xA5 } } := by
  rw [State.receiveByte, hp]
  rfl

end Received

/-- An unknown command byte (R166). -/
theorem State.commandByte_unknown {b : Byte} (hn : b ≠ nullByteValue) (hc : b ≠ continueByteValue)
    (hu : ∀ c : ConsoleCode, c.toByte ≠ b) : s.commandByte b = s.takeUnknown := by
  rw [State.commandByte, if_neg hn, if_neg hc, ConsoleCode.ofByte_none hu]

/-- A command byte whose arguments are still to come (R164). -/
theorem State.commandByte_toByte {c : ConsoleCode} (hc : 0 < c.argCount) : s.commandByte c.toByte =
    { s with port := { s.port with phase := .arguments c [], miso := some 0xA5 } } := by
  obtain ⟨notNull, notContinue⟩ := ConsoleCode.toByte_ne c
  rw [State.commandByte, if_neg notNull, if_neg notContinue, ConsoleCode.ofByte_toByte]
  exact if_neg hc.ne'

/-- Settles O17: every single-byte row is its byte received (`exec_byte`), and the phase says what that does. -/
theorem bytesActByPhase : Obligations.BytesActByPhase := by
  refine ⟨fun s hp => ?_, fun s b hp hn hc hu => ?_, fun s c hp hc => ?_, fun s c got row b hb hp hl => ?_,
    fun s row filler next rest thenIgnore hb hp => ?_, fun s row b hb => ⟨fun hp => ?_, fun hp => ?_⟩⟩
  · rw [exec_byte (b := 0x00) (by simp), State.receiveByte_command _ hp]
    rfl
  · rw [exec_byte (b := b) (by simp), State.receiveByte_command _ hp, State.commandByte_unknown hn hc hu]
    rfl
  · rw [exec_byte (b := c.toByte) (by simp), State.receiveByte_command _ hp, State.commandByte_toByte hc]
  · rw [exec_byte hb, State.receiveByte_arguments b hp hl]
  · rw [exec_byte hb, State.receiveByte_response filler hp]
    rfl
  · rw [exec_byte hb, State.receiveByte_ignoring b hp]
  · rw [exec_byte hb, State.receiveByte_closed b hp]

/-- Settles O18: the level before the edge lets both edges be taken. -/
theorem chipSelectOpensAndCloses : Obligations.ChipSelectOpensAndCloses := by
  refine ⟨fun s hs => ?_, fun s hs => ?_⟩
  · show complete s.takeCsFall = _
    rw [State.takeCsFall, if_neg (by simp [hs])]
    rfl
  · show complete s.takeCsRise = _
    rw [State.takeCsRise, if_pos hs]
    rfl

end Sys2Proof.Machine

/-! ## Numbers and sets in the fields of a block -/

namespace Sys2Proof.Machine

/-! ### A field holds the number that was written (R181) -/

theorem numberOf_cons (b : Byte) (l : List Byte) : numberOf (b :: l) = b.toNat * 256 ^ l.length + numberOf l := by
  have shifted : ∀ (l : List Byte) (n : Nat),
      l.foldl (fun n b => n * 256 + b.toNat) n = n * 256 ^ l.length + numberOf l := fun l => by
    induction l with
    | nil => simp [numberOf]
    | cons c l ih =>
      intro n
      rw [numberOf, List.foldl_cons, List.foldl_cons, ih, ih (0 * 256 + _), List.length_cons, pow_succ]
      ring
  simpa [numberOf] using shifted l b.toNat

/-- A number's bytes hold it, up to their width. -/
@[simp] theorem numberOf_be (n v : Nat) : numberOf (be n v) = unsignedField n (some v) := by
  show _ = v % 256 ^ n
  induction n with
  | zero => simp [be, numberOf, Nat.mod_one]
  | succ n ih =>
    rw [be, numberOf_cons, ih, length_be, BitVec.toNat_ofNat, Nat.mod_pow_succ (b := 256), Nat.mul_comm, Nat.add_comm]

@[simp] theorem numberOf_beOpt (n : Nat) (v : Option Nat) : numberOf (beOpt n v) = unsignedField n v := by
  cases v with
  | some v => exact numberOf_be n v
  | none =>
    have pos : 0 < 256 ^ n := by positivity
    exact (numberOf_be ..).trans (Nat.mod_eq_of_lt (by omega))

@[simp] theorem numberOf_beInt (n : Nat) (v : Int) : numberOf (beInt n v) = signedField n (some v) := by
  have pos : (0 : Int) < (256 ^ n : Nat) := by positivity
  have lt := Int.emod_lt_of_pos v pos
  have nonneg := Int.emod_nonneg v pos.ne'
  exact (numberOf_be ..).trans (Nat.mod_eq_of_lt (by omega))

@[simp] theorem numberOf_beIntOpt (n : Nat) (v : Option Int) : numberOf (beIntOpt n v) = signedField n v := by
  cases v with
  | some v => exact numberOf_beInt n v
  | none =>
    have pos : 0 < 256 ^ n := by positivity
    exact (numberOf_be ..).trans (Nat.mod_eq_of_lt (by omega))

@[simp] theorem numberOf_singleton (b : Byte) : numberOf [b] = b.toNat := by simp [numberOf]

/-- A number that its field's width can hold. -/
theorem unsignedField_of_lt {n v : Nat} (h : v < 256 ^ n) : unsignedField n (some v) = v := Nat.mod_eq_of_lt h

/-! ### The fields of bytes put together -/

@[simp] theorem fieldsOf_nil (r : List Byte) : fieldsOf [] r = [] := rfl

/-- The first field's bytes, and the fields behind them. -/
theorem fieldsOf_append {a : List Byte} {w : Nat} (h : a.length = w) (ws : List Nat) (r : List Byte) :
    fieldsOf (w :: ws) (a ++ r) = numberOf a :: fieldsOf ws r := by
  subst h
  simp [fieldsOf]

section Fields
variable (n : Nat) (ws : List Nat) (r : List Byte)

@[simp] theorem fieldsOf_be (v : Nat) : fieldsOf (n :: ws) (be n v ++ r) = unsignedField n (some v) :: fieldsOf ws r := by
  rw [fieldsOf_append (length_be ..), numberOf_be]

@[simp] theorem fieldsOf_beOpt (v : Option Nat) :
    fieldsOf (n :: ws) (beOpt n v ++ r) = unsignedField n v :: fieldsOf ws r := by
  rw [fieldsOf_append (length_beOpt ..), numberOf_beOpt]

@[simp] theorem fieldsOf_beInt (v : Int) :
    fieldsOf (n :: ws) (beInt n v ++ r) = signedField n (some v) :: fieldsOf ws r := by
  rw [fieldsOf_append (length_beInt ..), numberOf_beInt]

@[simp] theorem fieldsOf_beIntOpt (v : Option Int) :
    fieldsOf (n :: ws) (beIntOpt n v ++ r) = signedField n v :: fieldsOf ws r := by
  rw [fieldsOf_append (length_beIntOpt ..), numberOf_beIntOpt]

theorem fieldsOf_byte (b : Byte) : fieldsOf (1 :: ws) ([b] ++ r) = b.toNat :: fieldsOf ws r := by
  rw [fieldsOf_append (w := 1) rfl, numberOf_singleton]

end Fields

/-! ### Sets as bits -/

/-- Powers of two of the indices that pass a test, added up. -/
def bitSum (n : Nat) (p : Fin n → Bool) : Nat :=
  (List.finRange n).foldl (fun a i => if p i then a + 2 ^ i.val else a) 0

theorem bitSum_succ (n : Nat) (p : Fin (n + 1) → Bool) :
    bitSum (n + 1) p = bitSum n (fun i => p i.castSucc) + if p (Fin.last n) then 2 ^ n else 0 := by
  unfold bitSum
  rw [List.finRange_succ_last, List.foldl_append, List.foldl_map]
  simp only [List.foldl_cons, List.foldl_nil, Fin.val_castSucc, Fin.val_last]
  split <;> rfl

theorem bitSum_lt (n : Nat) (p : Fin n → Bool) : bitSum n p < 2 ^ n := by
  induction n with
  | zero => exact Nat.one_pos
  | succ n ih =>
    have := ih fun i => p i.castSucc
    rw [bitSum_succ, pow_succ]
    split <;> omega

/-- Bit `i` of the sum is the test of `i`. -/
theorem testBit_bitSum (n : Nat) (p : Fin n → Bool) (i : Fin n) : (bitSum n p).testBit i = p i := by
  induction n with
  | zero => exact i.elim0
  | succ n ih =>
    have lt := bitSum_lt n fun i => p i.castSucc
    rw [bitSum_succ]
    cases i using Fin.lastCases with
    | last =>
      rw [Fin.val_last]
      split
      · next h => rw [Nat.add_comm, Nat.testBit_two_pow_add_eq, Nat.testBit_lt_two_pow lt, h]; rfl
      · next h => rw [Nat.add_zero, Nat.testBit_lt_two_pow lt]; simpa using h
    | cast i =>
      rw [Fin.val_castSucc]
      split
      · rw [Nat.add_comm, Nat.testBit_two_pow_add_gt i.isLt]; exact ih _ i
      · exact ih _ i

theorem slotBits_eq (p : Slot → Bool) : slotBits p = bitSum 32 p := rfl
theorem groupBits_eq (p : GroupId → Bool) : groupBits p = bitSum 8 p := rfl

/-- The elements that pass a test, counted one after another or as a sum. -/
theorem foldl_add_eq_sum {α : Type} (p : α → Bool) (f : α → Nat) (l : List α) (n : Nat) :
    l.foldl (fun a x => if p x then a + f x else a) n = n + ((l.filter p).map f).sum := by
  induction l generalizing n with
  | nil => rfl
  | cons x l ih =>
    rw [List.foldl_cons, ih]
    cases h : p x <;> simp [h, Nat.add_assoc]

/-- A set of slots in its field (R181). -/
theorem slotsField_eq (a : List Slot) : unsignedField 4 (some (slotBits fun i => decide (i ∈ a))) = slotsField a := by
  rw [unsignedField_of_lt (slotBits_eq _ ▸ bitSum_lt 32 _), slotBits, foldl_add_eq_sum, Nat.zero_add, slotsField]

/-- A set of conditions in its field (R181). -/
theorem condField_eq (a : CondSet) : unsignedField 2 (some (condBits a)) = condField a := by
  have test : a.contains = fun c => decide (c ∈ a) := funext fun c => List.contains_eq_mem c a
  have sum : condBits a = condField a := by
    rw [condBits, foldl_add_eq_sum, Nat.zero_add, test, condField]
  have lt : condField a < 256 ^ 2 :=
    calc condField a ≤ (Cond.all.map fun c => 2 ^ (c.code - 1)).sum :=
          ((List.filter_sublist (l := Cond.all)).map _).sum_le_sum fun _ _ => Nat.zero_le _
      _ < 256 ^ 2 := by decide
  rw [sum, unsignedField_of_lt lt]

end Sys2Proof.Machine

/-! ## The fields of every LOOK block (R183) -/

namespace Sys2Proof.Machine

/-! ### Codes fit their byte -/

theorem HoistState.code_field (x : HoistState) : unsignedField 1 (some x.code) = x.code := by cases x <;> rfl
theorem GroupState.code_field (x : GroupState) : unsignedField 1 (some x.code) = x.code := by cases x <;> rfl
theorem Release.code_field (x : Release) : unsignedField 1 (some x.code) = x.code := by cases x <;> rfl
theorem Direction.code_field (x : Direction) : unsignedField 1 (some x.code) = x.code := by cases x <;> rfl
theorem Cond.code_field (x : Cond) : unsignedField 1 (some x.code) = x.code := by cases x <;> rfl
theorem StartSource.code_field (x : StartSource) : unsignedField 1 (some x.code) = x.code := by cases x <;> rfl
theorem yesNo_field (b : Bool) : unsignedField 1 (some (yesNo b)) = yesField b := by cases b <;> rfl
theorem slot_field (i : Slot) : unsignedField 1 (some i.val) = i.val := unsignedField_of_lt (by omega)
theorem groupId_field (k : GroupId) : unsignedField 1 (some k.val) = k.val := unsignedField_of_lt (by omega)

theorem yesNo_le (b : Bool) : yesNo b ≤ 1 := by cases b <;> decide

/-- Three flags in a byte (R181). -/
theorem threeFlags_field (a b c : Bool) : unsignedField 1 (some (yesNo a + 2 * yesNo b + 4 * yesNo c)) =
    yesField a + 2 * yesField b + 4 * yesField c := by
  have := yesNo_le a
  have := yesNo_le b
  have := yesNo_le c
  exact unsignedField_of_lt (by omega)

/-! ### Hoist blocks -/

section Hoists
variable {s : State} {i : Slot} {h : Hoist}

theorem fieldsOf_statusBlock_some (hr : (s.slot i).record = some h) :
    fieldsOf [1, 1, 1, 1, 1, 1, 1, 1, 2, 2, 1, 1] (s.statusBlock i) =
      [i.val, h.state.code, unsignedField 1 (h.group.map (·.val)), yesField (s.slot i).attention,
        (s.slot i).release.code, unsignedField 1 (s.slot i).releasedAddress, yesField h.nodeFlags.isSome, (h.nodeFlags.getD 0).toNat,
        condField h.current, condField h.accrued, unsignedField 1 (some h.missCount),
        unsignedField 1 (h.lastMiss.map (·.code))] := by
  rw [← List.append_nil (s.statusBlock i), State.statusBlock, hr]
  simp only [List.append_assoc, fieldsOf_be, fieldsOf_beOpt, fieldsOf_byte, fieldsOf_nil, slot_field,
    HoistState.code_field, yesNo_field, Release.code_field, condField_eq]

/-- An empty slot's STATUS: its own fields, and the others absent or zero. -/
theorem fieldsOf_statusBlock_none (hr : (s.slot i).record = none) :
    fieldsOf [1, 1, 1, 1, 1, 1, 1, 1, 2, 2, 1, 1] (s.statusBlock i) =
      [i.val, 0, 255, yesField (s.slot i).attention, (s.slot i).release.code,
        unsignedField 1 (s.slot i).releasedAddress, 0, 0, 0, 0, 0, 255] := by
  rw [← List.append_nil (s.statusBlock i), State.statusBlock, hr]
  simp only [List.append_assoc, fieldsOf_be, fieldsOf_beOpt, fieldsOf_byte, fieldsOf_nil, slot_field, yesNo_field,
    Release.code_field]
  rfl

theorem fieldsOf_configBlock_some (hr : (s.slot i).record = some h) :
    fieldsOf [1, 1, 2, 2, 2, 2, 2, 1, 1, 1, 2] (s.configBlock i) =
      [i.val, unsignedField 1 (some h.address), unsignedField 2 h.ratedLoad, unsignedField 2 h.ratedSpeed,
        unsignedField 2 (some h.lower), unsignedField 2 (some h.upper), signedField 2 (some h.trim),
        unsignedField 1 (some h.overloadPct), unsignedField 1 (some h.underloadPct), unsignedField 1 (some h.shiftPct),
        unsignedField 2 (some h.jogDemand)] := by
  rw [← List.append_nil (s.configBlock i), State.configBlock, State.record, hr]
  simp only [List.append_assoc, fieldsOf_be, fieldsOf_beOpt, fieldsOf_beInt, fieldsOf_nil, slot_field]

/-- An empty slot's CONFIG: every field but the index absent. -/
theorem fieldsOf_configBlock_none (hr : (s.slot i).record = none) :
    fieldsOf [1, 1, 2, 2, 2, 2, 2, 1, 1, 1, 2] (s.configBlock i) =
      [i.val, 255, 65535, 65535, 65535, 65535, 0x8000, 255, 255, 255, 65535] := by
  rw [← List.append_nil (s.configBlock i), State.configBlock, State.record, hr]
  simp only [List.append_assoc, fieldsOf_be, fieldsOf_beOpt, fieldsOf_beIntOpt, fieldsOf_nil, slot_field]
  rfl

theorem fieldsOf_trackBlock_some (hr : (s.slot i).record = some h) :
    fieldsOf [1, 3, 2, 2, 2, 1, 4, 1, 3, 2] (s.trackBlock i) =
      [i.val, unsignedField 3 h.height, unsignedField 2 h.load, unsignedField 2 h.baseline,
        unsignedField 2 (some h.demand), h.direction.code, signedField 4 h.deviation, yesField h.landed,
        unsignedField 3 h.jogStart, unsignedField 2 h.jogDistance] := by
  rw [← List.append_nil (s.trackBlock i), State.trackBlock, State.record, hr]
  simp only [List.append_assoc, fieldsOf_be, fieldsOf_beOpt, fieldsOf_beIntOpt, fieldsOf_nil, slot_field, yesNo_field,
    Direction.code_field]

/-- An empty slot's TRACK: every field but the index absent. -/
theorem fieldsOf_trackBlock_none (hr : (s.slot i).record = none) :
    fieldsOf [1, 3, 2, 2, 2, 1, 4, 1, 3, 2] (s.trackBlock i) =
      [i.val, 0xFFFFFF, 65535, 65535, 65535, 255, 0x80000000, 255, 0xFFFFFF, 65535] := by
  rw [← List.append_nil (s.trackBlock i), State.trackBlock, State.record, hr]
  simp only [List.append_assoc, fieldsOf_be, fieldsOf_beOpt, fieldsOf_beIntOpt, fieldsOf_nil, slot_field]
  rfl

end Hoists

/-! ### Fields that may be absent, by their codes (R28, R29, R106, R110, R111, R123) -/

/-- A group's direction. -/
def travelField : Option Travel → Nat
  | none => 255
  | some .up => 1
  | some .down => 2

theorem travelField_eq (d : Option Travel) : unsignedField 1 (d.map (·.code)) = travelField d := by
  rcases d with _ | d
  · rfl
  · cases d <;> rfl

/-- A group's hold source. -/
def holdField : Option HoldSource → Nat
  | none => 255
  | some .console => 1
  | some .line0 => 2
  | some .line1 => 3

theorem holdField_eq (d : Option HoldSource) : unsignedField 1 (d.map (·.code)) = holdField d := by
  rcases d with _ | d
  · rfl
  · cases d <;> rfl

/-- A group's stop cause. -/
def stopField : Option StopCause → Nat
  | none => 255
  | some .halt => 16
  | some .holdLost => 17
  | some (.fault c) => c.code

theorem stopField_eq (d : Option StopCause) : unsignedField 1 (d.map (·.code)) = stopField d := by
  rcases d with _ | d
  · rfl
  · cases d with
    | halt => rfl
    | holdLost => rfl
    | fault c => exact c.code_field

/-- The four first-fault fields. -/
def firstFaultFields : Option FirstFault → List Nat
  | some f => [f.cause.code, unsignedField 1 (f.slot.map (·.val)), signedField 4 f.value, signedField 4 f.reference]
  | none => [255, 255, 0x80000000, 0x80000000]

theorem fieldsOf_firstFault (f : Option FirstFault) (ws : List Nat) (r : List Byte) :
    fieldsOf (1 :: 1 :: 4 :: 4 :: ws) (firstFaultBytes f ++ r) = firstFaultFields f ++ fieldsOf ws r := by
  rcases f with _ | f
  · simp only [firstFaultBytes, List.append_assoc, fieldsOf_beOpt, fieldsOf_beIntOpt]
    rfl
  · simp only [firstFaultBytes, List.append_assoc, fieldsOf_be, fieldsOf_beOpt, fieldsOf_beIntOpt, Cond.code_field]
    rfl

/-- The three pending-fault fields. -/
def pendingFaultFields : Option PendingFault → List Nat
  | some f => [f.cause.code, f.slot.val, signedField 4 f.value]
  | none => [255, 255, 0x80000000]

theorem fieldsOf_pendingFault (f : Option PendingFault) (ws : List Nat) (r : List Byte) :
    fieldsOf (1 :: 1 :: 4 :: ws) (pendingFaultBytes f ++ r) = pendingFaultFields f ++ fieldsOf ws r := by
  rcases f with _ | f
  · simp only [pendingFaultBytes, List.append_assoc, fieldsOf_beOpt, fieldsOf_beIntOpt]
    rfl
  · simp only [pendingFaultBytes, List.append_assoc, fieldsOf_be, fieldsOf_beIntOpt, Cond.code_field, slot_field]
    rfl

/-- A cue's start source. -/
def sourceField : StartSource → Nat
  | .console => 0
  | .cue0 => 1
  | .cue1 => 2
  | .after _ => 3

/-- A cue's after-group. -/
def afterField : StartSource → Nat
  | .after k => k.val
  | _ => 255

theorem afterField_eq (x : StartSource) : unsignedField 1 x.afterGroup = afterField x := by
  cases x with
  | after k => exact groupId_field k
  | console | cue0 | cue1 => rfl

/-- The five fields of a cue entry. -/
def cueFields : Option Cue → List Nat
  | some c => [unsignedField 2 (some c.target), unsignedField 2 (some c.cruise), unsignedField 2 (some c.accel),
      sourceField c.source, afterField c.source]
  | none => [65535, 65535, 65535, 255, 255]

theorem fieldsOf_cue (c : Option Cue) (ws : List Nat) (r : List Byte) :
    fieldsOf (2 :: 2 :: 2 :: 1 :: 1 :: ws) (cueBytes c ++ r) = cueFields c ++ fieldsOf ws r := by
  rcases c with _ | c
  · rfl
  · simp only [cueBytes, List.append_assoc, fieldsOf_be, fieldsOf_beOpt, StartSource.code_field, afterField_eq]
    rfl

/-- The cause of the last jog end. -/
def jogEndField : Option JogEnd → Nat
  | none => 255
  | some ⟨_, .distance⟩ => 1
  | some ⟨_, .halt⟩ => 2
  | some ⟨_, .hold⟩ => 3
  | some ⟨_, .condition _⟩ => 4
  | some ⟨_, .estop⟩ => 5

theorem jogEndField_eq (e : Option JogEnd) : unsignedField 1 (e.map (·.cause.code)) = jogEndField e := by
  rcases e with _ | ⟨_, cause⟩
  · rfl
  · cases cause <;> rfl

/-- The condition of the last jog end. -/
def jogEndCondField : Option JogEnd → Nat
  | some ⟨_, .condition c⟩ => c.code
  | _ => 255

theorem jogEndCondField_eq (e : Option JogEnd) : unsignedField 1 (e.bind (·.cause.cond)) = jogEndCondField e := by
  rcases e with _ | ⟨_, cause⟩
  · rfl
  · cases cause with
    | condition c => exact c.code_field
    | distance | halt | hold | estop => rfl

/-! ### Group blocks and the device's -/

section Groups
variable (s : State) (k : GroupId)

theorem fieldsOf_groupStateBlock :
    fieldsOf [1, 1, 4, 1, 1, 4, 1, 4, 4, 2, 4, 1, 2, 2, 1, 1, 1, 1, 1, 1, 4, 4, 1, 1, 4] (s.groupStateBlock k) =
      [k.val, (s.group k).state.code, slotsField (s.group k).members, yesField (s.group k).attention,
        travelField (s.group k).direction, unsignedField 4 (s.group k).cruise, yesField (s.group k).cruiseLimited,
        signedField 4 (s.group k).startRef, signedField 4 (s.group k).reference,
        unsignedField 2 (some (s.group k).residue), unsignedField 4 (some (s.group k).refSpeed),
        yesField (s.group k).arrived, unsignedField 2 (s.group k).stagedSpeed, unsignedField 2 (s.group k).stagedTarget,
        holdField (s.group k).holdSource, unsignedField 1 (some (s.group k).settleRemaining),
        stopField (s.group k).stopCause,
        yesField (s.group k).holdLost + 2 * yesField (s.group k).stopTime + 4 * yesField (s.group k).retargetLate] ++
      firstFaultFields (s.group k).firstFault ++ pendingFaultFields (s.group k).pendingFault := by
  rw [← List.append_nil (s.groupStateBlock k)]
  unfold State.groupStateBlock
  simp only [Group.flagBits, List.append_assoc, fieldsOf_be, fieldsOf_beOpt, fieldsOf_beIntOpt, fieldsOf_firstFault,
    fieldsOf_pendingFault, fieldsOf_nil, groupId_field, GroupState.code_field, slotsField_eq, yesNo_field, travelField_eq,
    holdField_eq, stopField_eq, threeFlags_field, List.cons_append, List.nil_append]
  rw [List.append_nil]

theorem fieldsOf_groupConfigBlock :
    fieldsOf [1, 1, 1, 1, 1, 1, 1, 2, 2, 2] (s.groupConfigBlock k) =
      let t := (s.group k).settings
      [k.val, unsignedField 1 (some t.levelTol), unsignedField 1 (some t.gain), unsignedField 1 (some t.landingTol),
        yesField t.stopMask.underload + 2 * yesField t.stopMask.dev + 4 * yesField t.stopMask.loadShift,
        unsignedField 1 (some t.stepPeriod), unsignedField 1 (some t.settleRounds), unsignedField 2 (some t.holdTimeout),
        unsignedField 2 (some t.stopTimeout), unsignedField 2 (some t.landingTimeout)] := by
  rw [← List.append_nil (s.groupConfigBlock k), State.groupConfigBlock]
  simp only [StopMask.code, List.append_assoc, fieldsOf_be, fieldsOf_nil, groupId_field, threeFlags_field]

theorem fieldsOf_groupQueueBlock :
    fieldsOf [1, 1, 2, 2, 2, 1, 1, 2, 2, 2, 1, 1, 2, 2, 2, 1, 1, 2, 2, 2, 1, 1] (s.groupQueueBlock k) =
      let q := (s.group k).queue
      [k.val, unsignedField 1 (some q.length)] ++ cueFields q[0]? ++ cueFields q[1]? ++ cueFields q[2]? ++
        cueFields q[3]? := by
  rw [← List.append_nil (s.groupQueueBlock k), State.groupQueueBlock]
  simp only [List.append_assoc, fieldsOf_be, fieldsOf_cue, fieldsOf_nil, groupId_field, List.cons_append, List.nil_append]
  rw [List.append_nil]

/-- The levels byte has seven flags. -/
theorem levelBits_field : unsignedField 1 (some s.levelBits) = s.levelBits := by
  refine unsignedField_of_lt ?_
  have e := yesNo_le s.safety.estopAsserted
  have c0 := yesNo_le s.safety.cue0
  have c1 := yesNo_le s.safety.cue1
  have m := yesNo_le s.mainsEn
  have p := yesNo_le s.safety.permit
  have seen := yesNo_le s.safety.estopSeen
  have cleared := yesNo_le s.safety.estopCleared
  unfold State.levelBits
  omega

theorem fieldsOf_linesBlock :
    fieldsOf [1, 1, 1, 1, 1, 2, 1, 2] s.linesBlock =
      [s.levelBits, unsignedField 1 (s.safety.jogSlot.map (·.val)),
        unsignedField 1 (s.safety.lastJogEnd.map (·.slot.val)), jogEndField s.safety.lastJogEnd, jogEndCondField s.safety.lastJogEnd,
        unsignedField 2 (some s.link.responseTimeout), unsignedField 1 (some s.link.lossThreshold),
        unsignedField 2 (some s.link.idleInterval)] := by
  rw [← List.append_nil s.linesBlock, State.linesBlock]
  simp only [List.append_assoc, fieldsOf_be, fieldsOf_beOpt, fieldsOf_nil, levelBits_field, jogEndField_eq,
    jogEndCondField_eq]

end Groups

/-! ### Every block -/

theorem length_firstFaultBytes (f : Option FirstFault) : (firstFaultBytes f).length = 10 := by
  cases f <;> simp [firstFaultBytes]

theorem length_pendingFaultBytes (f : Option PendingFault) : (pendingFaultBytes f).length = 6 := by
  cases f <;> simp [pendingFaultBytes]

theorem length_cueBytes (c : Option Cue) : (cueBytes c).length = 8 := by
  cases c <;> simp [cueBytes]

theorem State.length_block (s : State) (b : LookBlock) (n : Nat) : (s.block b n).length = b.length := by
  cases b with
  | hoistStatus =>
    rw [State.block, State.statusBlock]
    split <;> simp [LookBlock.length]
  | hoistConfig =>
    rw [State.block, State.configBlock]
    split <;> simp [LookBlock.length]
  | hoistTrack =>
    rw [State.block, State.trackBlock]
    split <;> simp [LookBlock.length]
  | groupState =>
    unfold State.block State.groupStateBlock
    simp [length_firstFaultBytes, length_pendingFaultBytes, LookBlock.length]
  | groupConfig => simp [State.block, State.groupConfigBlock, LookBlock.length]
  | groupQueue => simp [State.block, State.groupQueueBlock, length_cueBytes, LookBlock.length]
  | deviceLines => simp [State.block, State.linesBlock, LookBlock.length]

/-- Settles O14: each block's bytes field by field, in the order of R183. -/
theorem blockLengthsFixed : Obligations.BlockLengthsFixed := by
  refine ⟨fun s b n => (s.length_block b n).trans (by cases b <;> rfl), fun s i => ?_, fun s k => ?_,
    fun s n => fieldsOf_linesBlock s, rfl, rfl, rfl, rfl, rfl⟩
  · have index : Fin.ofNat 32 i.val = i := Fin.ofNat_val_eq_self i
    simp only [State.block, index]
    cases hr : (s.slot i).record with
    | some h => exact ⟨fieldsOf_statusBlock_some hr, fieldsOf_configBlock_some hr, fieldsOf_trackBlock_some hr⟩
    | none => exact ⟨fieldsOf_statusBlock_none hr, fieldsOf_configBlock_none hr, fieldsOf_trackBlock_none hr⟩
  · have index : Fin.ofNat 8 k.val = k := Fin.ofNat_val_eq_self k
    simp only [State.block, index]
    exact ⟨fieldsOf_groupStateBlock s k, fieldsOf_groupConfigBlock s k, fieldsOf_groupQueueBlock s k⟩

end Sys2Proof.Machine

/-! ## SUMMARY and ATTN (R175, R177) -/

namespace Sys2Proof.Machine

/-- A byte holds the lowest eight bits of a number. -/
theorem getLsbD_byte (v j : Nat) : (BitVec.ofNat 8 v).getLsbD j = (decide (j < 8) && v.testBit j) :=
  BitVec.getLsbD_ofNat ..

/-- Four bytes of a number, most significant first, hold its lowest 32 bits. -/
theorem getLsbD_fourBytes (v : Nat) {j : Nat} (hj : j < 32) :
    (BitVec.ofNat 8 (v / 256 ^ 3) ++ BitVec.ofNat 8 (v / 256 ^ 2) ++ BitVec.ofNat 8 (v / 256 ^ 1) ++
      BitVec.ofNat 8 (v / 256 ^ 0)).getLsbD j = v.testBit j := by
  have byte : ∀ n m : Nat, (BitVec.ofNat 8 (v / 256 ^ n)).getLsbD m = (decide (m < 8) && v.testBit (8 * n + m)) :=
    fun n m => by
      rw [getLsbD_byte, show 256 ^ n = 2 ^ (8 * n) from (Nat.pow_mul 2 8 n).symm, Nat.testBit_div_two_pow, Nat.add_comm]
  simp only [BitVec.getLsbD_append, byte]
  grind

/-- ATTN is high exactly while a flag is set (R177). -/
theorem State.attn_iff (s : State) : s.attn = true ↔ (∃ i, (s.slot i).attention = true) ∨
    (∃ k, (s.group k).attention = true) ∨ s.safety.estopSeen = true ∨ s.safety.estopCleared = true := by
  simp only [State.attn, Bool.or_eq_true, List.any_eq_true, List.mem_finRange, true_and, or_assoc]

/-- The two device bits of the last byte. -/
theorem deviceBits (a b : Bool) :
    let d := BitVec.ofNat 8 ((yesNo a + 2 * yesNo b) / 256 ^ 0)
    d.getLsbD 0 = a ∧ d.getLsbD 1 = b ∧ ∀ j, 2 ≤ j → d.getLsbD j = false := by
  refine ⟨by cases a <;> cases b <;> rfl, by cases a <;> cases b <;> rfl, fun j hj => ?_⟩
  have ha := yesNo_le a
  have hb := yesNo_le b
  have lt : (yesNo a + 2 * yesNo b) / 256 ^ 0 < 2 ^ j :=
    calc (yesNo a + 2 * yesNo b) / 256 ^ 0 < 2 ^ 2 := by omega
      _ ≤ 2 ^ j := Nat.pow_le_pow_right (by decide) hj
  rw [getLsbD_byte, Nat.testBit_lt_two_pow lt, Bool.and_false]

/-- Settles O15: the bits of the bytes are the flags that were added up as powers of two (`testBit_bitSum`). -/
theorem summaryShowsEveryFlag : Obligations.SummaryShowsEveryFlag := by
  intro s hp
  obtain ⟨seen, cleared, rest⟩ := deviceBits s.safety.estopSeen s.safety.estopCleared
  refine ⟨_, _, _, _, _, _, complete_console hp rfl, fun i => ?_, fun k => ?_, seen, cleared, rest, s.attn_iff⟩
  · rw [getLsbD_fourBytes _ i.isLt, slotBits_eq, testBit_bitSum, State.slot_dropWalk]
  · rw [getLsbD_byte, pow_zero, Nat.div_one, decide_eq_true k.isLt, Bool.true_and, groupBits_eq,
      testBit_bitSum, State.group_dropWalk]

end Sys2Proof.Machine

/-! ## A step takes the command at the front of the queue (log 21) -/

namespace Sys2Proof.Machine

/-- With a command at the front of the queue, a step runs it on the state that keeps the rest of the queue. -/
theorem step_of_pending_cons {s : State} {c : Instr} {rest : List Instr} (h : s.pending = c :: rest) :
    step s = exec c { s with pending := rest } := by
  rw [step, h]

/-- Settles O1: taking the command off the front gives back the state it was put before. -/
theorem stepRunsFrontCommand : Obligations.StepRunsFrontCommand :=
  fun _ _ => step_of_pending_cons rfl

end Sys2Proof.Machine
